-- ==== Sys2Proof/Word.lean ====
section
/-! DEFINITION. The words the OV2240's spec speaks of: bytes, addresses, and the numbers that name its parts. -/

namespace Sys2Proof

/-- One byte. -/
abbrev Byte := BitVec 8

/-- A 24-bit target address (00_scope.md, Addresses). -/
abbrev TargetAddr := BitVec 24

/-- A 64-bit host address (00_scope.md, Addresses). -/
abbrev HostAddr := BitVec 64

/-- A context, C0 to C15 (R1). -/
abbrev CtxId := Fin 16

/-- A target, T0 to T15. -/
abbrev TargetId := Fin 16

/-- A queue, 0 to 8: queue 0 is the control queue (R130). -/
abbrev QueueId := Fin 9

/-- One of the eight read tags (R158). -/
abbrev TagId := Fin 8

/-- A staging chunk, K0 to K23 (R116). -/
abbrev ChunkId := Fin 24

/-- A cache entry, E0 to E3 (R89). -/
abbrev EntryId := Fin 4

end Sys2Proof
end

