-- ==== Sys2Proof/Syntax.lean ====
section
/-! DEFINITION. The commands of the OV2240: one constructor for each row of spec/opcode_table.json, with its operands. -/

namespace Sys2Proof

/-- What a read response carries: its bytes, or a host error (R160). A response whose bytes are not as many as the read
asked for is not complete (log 22). -/
inductive Response where
  | data (bytes : List Byte)
  | hostError
  deriving DecidableEq, Repr

/-- The width of a register access: 64 bits, or one 32-bit half (R180). -/
inductive Width where
  | full
  | half
  deriving DecidableEq, Repr

/-- The OV2240's commands. A command is an event that reaches the part: a register write, a read response, a sample of
the target bus, a due time, or the link's acceptance of a posted write (log 21). -/
inductive Instr where
  /-- POWER_ON_RESET (R66) -/
  | powerOnReset
  /-- LINK_RESET (R25, R66) -/
  | linkReset
  /-- ENABLE (R181): a write of `value` to CONTROL with ENABLE 1 and RESET 0 -/
  | enable (value : BitVec 32)
  /-- RESET (R182): a write of `value` to CONTROL with RESET 1 -/
  | reset (value : BitVec 32)
  /-- FUNCTION_RESET_COMPLETE (R182): the second step of a function reset -/
  | functionResetComplete
  /-- IRQ_ENABLE (R145): a write of `value` to CONTROL with ENABLE 0 and RESET 0 -/
  | irqEnable (value : BitVec 32)
  /-- INDEX_ERROR_CLEAR (R183): a write of `value` to STATUS -/
  | indexErrorClear (value : BitVec 32)
  /-- REGISTER_WRITE (R184, R180): a write to CTLQ_RING, CTLQ_CPL, PROFILE_BASE, or to anything that ignores it -/
  | registerWrite (offset : BitVec 8) (width : Width) (value : BitVec 64)
  /-- SUB_TAIL (R136): an INDEX_PORT write that carries a submission tail -/
  | subTail (queue : BitVec 4) (value : BitVec 16)
  /-- CPL_HEAD (R137): an INDEX_PORT write that carries a completion head -/
  | cplHead (queue : BitVec 4) (value : BitVec 16)
  /-- TAG_GRANT (R159) -/
  | tagGrant
  /-- HEADER_SLOT_RETURN (R152) -/
  | headerSlotReturn (tag : TagId) (response : Response)
  /-- EXTENSION_SLOT_RETURN (R154) -/
  | extensionSlotReturn (tag : TagId) (response : Response)
  /-- PROFILE_LOAD_RETURN (R93) -/
  | profileLoadReturn (tag : TagId) (response : Response)
  /-- DATA_READ_RETURN (R125) -/
  | dataReadReturn (tag : TagId) (response : Response)
  /-- HOST_READ_TIMEOUT (R160) -/
  | hostReadTimeout (tag : TagId)
  /-- STALE_TAG_EXPIRY (R160) -/
  | staleTagExpiry (tag : TagId)
  /-- STALE_RESPONSE (R160) -/
  | staleResponse (tag : TagId)
  /-- BUS_GRANT (R59) -/
  | busGrant
  /-- TURN_OFF_WAIT_END (R46) -/
  | turnOffWaitEnd
  /-- OPEN_PHASE_END (R49): THOLD and the two RESPONSE inputs (second, first) at the end of the open phase -/
  | openPhaseEnd (hold : Bool) (response : BitVec 2)
  /-- BEAT_END (R50): THOLD, TFLOW and the data lines at the end of the strobe -/
  | beatEnd (hold flow : Bool) (lines : BitVec 32)
  /-- HOLD_DROP (R51): the RESPONSE inputs, TFLOW and the data lines when HOLD drops -/
  | holdDrop (response : BitVec 2) (flow : Bool) (lines : BitVec 32)
  /-- HOLD_TIMEOUT (R52) -/
  | holdTimeout
  /-- RETRY_TIMER_DUE (R72) -/
  | retryTimerDue (context : CtxId)
  /-- POLL_TIMER_DUE (R16) -/
  | pollTimerDue (context : CtxId)
  /-- FLOW_TIMER_DUE (R77) -/
  | flowTimerDue (context : CtxId)
  /-- COMPLETION_HANDOFF (R141) -/
  | completionHandoff (context : CtxId)
  /-- ENTRY_ISSUED (R21) -/
  | entryIssued
  /-- DATA_WRITE_ISSUED (R161) -/
  | dataWriteIssued
  /-- DELAY_TIMER_DUE (R144) -/
  | delayTimerDue (queue : QueueId)
  /-- CONTROL_READ_ERROR (R164) -/
  | controlReadError
  /-- UNKNOWN_COMMAND (R165): the control slot read returns with a record of no known command -/
  | unknownCommand (slot : List Byte)
  /-- CFGQ (R168): the control slot read returns with a CFGQ record; so for the eight below -/
  | cfgq (slot : List Byte)
  /-- ENQ (R169) -/
  | enq (slot : List Byte)
  /-- DISQ (R170) -/
  | disq (slot : List Byte)
  /-- ABT (R172) -/
  | abt (slot : List Byte)
  /-- INVP (R173) -/
  | invp (slot : List Byte)
  /-- RLST (R174) -/
  | rlst (slot : List Byte)
  /-- RSTT (R175) -/
  | rstt (slot : List Byte)
  /-- QRYQ (R177) -/
  | qryq (slot : List Byte)
  /-- MARK (R178) -/
  | mark (slot : List Byte)
  /-- PULSE_END (R65) -/
  | pulseEnd
  /-- POWER_ON_PULSE_END (R66) -/
  | powerOnPulseEnd
  /-- MESSAGE_ISSUED (R161) -/
  | messageIssued
  deriving DecidableEq, Repr

end Sys2Proof
end

