-- ==== Sys2Proof/WellFormed.lean ====
section
/-! DEFINITION. Which commands are well formed: a CONTROL write stands under the row its bits name, a register access is
one the spec allows, a response and a control slot have the length and the command code their row says. -/

namespace Sys2Proof

/-- A complete response of `n` bytes, or a host error (R160). -/
def Response.fits (r : Response) (n : Nat) : Bool :=
  match r with
  | .data bytes => bytes.length == n
  | .hostError => true

/-- A response to a data mover read: 1 to 256 bytes (R124). -/
def Response.fitsData (r : Response) : Bool :=
  match r with
  | .data bytes => decide (1 ≤ bytes.length ∧ bytes.length ≤ 256)
  | .hostError => true

/-- A control slot of 64 bytes whose command byte is `code` (11.2, Control record). -/
def slotIs (slot : List Byte) (code : Byte) : Bool :=
  slot.length == 64 && slot.head? == some code

/-- A control slot of 64 bytes whose command byte is none of the nine (R165). -/
def slotUnknown (slot : List Byte) : Bool :=
  slot.length == 64 && decide (∀ c ∈ slot.head?, c.toNat = 0 ∨ 9 < c.toNat)

/-- A register write that is REGISTER_WRITE's: a whole register or one half, aligned (R180), within the window of 256
bytes, and none that acts through CONTROL, STATUS or INDEX_PORT, which have rows of their own. -/
def registerWriteOk (offset : BitVec 8) (width : Width) (value : BitVec 64) : Bool :=
  let acts := offset == 0x08#8 || offset == 0x10#8 || offset == 0x30#8
  match width with
  | .full => decide (offset.toNat % 8 = 0) && !acts
  | .half => decide (offset.toNat % 4 = 0) && !acts && decide (value.toNat < 2 ^ 32)

/-- The command is one its row describes. -/
def Instr.wf : Instr → Bool
  | .powerOnReset => true
  | .linkReset => true
  | .enable v => v.getLsbD 0 && !v.getLsbD 1
  | .reset v => v.getLsbD 1
  | .functionResetComplete => true
  | .irqEnable v => !v.getLsbD 0 && !v.getLsbD 1
  | .indexErrorClear _ => true
  | .registerWrite o w v => registerWriteOk o w v
  | .subTail _ _ => true
  | .cplHead _ _ => true
  | .tagGrant => true
  | .headerSlotReturn _ r => r.fits 64
  | .extensionSlotReturn _ r => r.fits 64
  | .profileLoadReturn _ r => r.fits 32
  | .dataReadReturn _ r => r.fitsData
  | .hostReadTimeout _ => true
  | .staleTagExpiry _ => true
  | .staleResponse _ => true
  | .busGrant => true
  | .turnOffWaitEnd => true
  | .openPhaseEnd _ _ => true
  | .beatEnd _ _ _ => true
  | .holdDrop _ _ _ => true
  | .holdTimeout => true
  | .retryTimerDue _ => true
  | .pollTimerDue _ => true
  | .flowTimerDue _ => true
  | .completionHandoff _ => true
  | .entryIssued => true
  | .dataWriteIssued => true
  | .delayTimerDue _ => true
  | .controlReadError => true
  | .unknownCommand slot => slotUnknown slot
  | .cfgq slot => slotIs slot 0x01#8
  | .enq slot => slotIs slot 0x02#8
  | .disq slot => slotIs slot 0x03#8
  | .abt slot => slotIs slot 0x04#8
  | .invp slot => slotIs slot 0x05#8
  | .rlst slot => slotIs slot 0x06#8
  | .rstt slot => slotIs slot 0x07#8
  | .qryq slot => slotIs slot 0x08#8
  | .mark slot => slotIs slot 0x09#8
  | .pulseEnd => true
  | .powerOnPulseEnd => true
  | .messageIssued => true

end Sys2Proof
end

