-- ==== Sys2Proof/Decode.lean ====
section
/-! DEFINITION. From what the host writes to a command. The opcode table gives no row any bits, so no word spells a
command (`decodeTableWord`); the register window does (R180 to R184, 11.1), and `commandOfWrite` reads it. -/

namespace Sys2Proof

/-- The command that a word spells by the table's bits: the table gives no row bits, so none (log 21). -/
def decodeTableWord (_nbits _w : Nat) : Option Instr := none

/-- The command a write to the lower half of CONTROL is: RESET when bit 1 is set (R182), else ENABLE when bit 0 is set
(R181), else IRQ_ENABLE (R145). -/
def commandOfControl (value : BitVec 32) : Instr :=
  if value.getLsbD 1 then .reset value
  else if value.getLsbD 0 then .enable value
  else .irqEnable value

/-- The command a write to the lower half of INDEX_PORT is (11.1): queue in bits 0 to 3, bit 4 clear for SUB_TAIL and set
for CPL_HEAD, the index in bits 16 to 31. -/
def commandOfIndexPort (value : BitVec 32) : Instr :=
  let queue := value.extractLsb' 0 4
  let index := value.extractLsb' 16 16
  if value.getLsbD 4 then .cplHead queue index else .subTail queue index

/-- The command a host write to the register window is: none for an access the spec does not describe (R180: a whole
64-bit register, or either 32-bit half; log 25). -/
def commandOfWrite (offset : BitVec 8) (width : Width) (value : BitVec 64) : Option Instr :=
  let low := value.truncate 32
  let aligned : Bool := match width with
    | .full => offset.toNat % 8 == 0
    | .half => offset.toNat % 4 == 0 && decide (value.toNat < 2 ^ 32)
  if aligned then
    if offset = 0x08#8 then some (commandOfControl low)
    else if offset = 0x10#8 then some (.indexErrorClear low)
    else if offset = 0x30#8 then some (commandOfIndexPort low)
    else some (.registerWrite offset width value)
  else none

end Sys2Proof
end

