-- ==== Sys2Proof/Config.lean ====
section
/-! DEFINITION. The choices and values the spec leaves open: each is a constant without a body, so that nothing can be
proved of it and every statement holds whatever it is. -/

namespace Sys2Proof.Config

/-- Free: when one CONTROL write takes an enable (R181) and also changes IRQ_ENABLE from 0 to 1 (R145), whether the
owed messages are sent before queue 0's row is reset by the enable (true) or after it (false). Log 7. -/
opaque irqBeforeEnable : Bool

/-- Free: the beats of an access (less one, taken modulo 256) whose segment of `length` bytes is not a whole number of
beats of a port `width` bytes wide. R9 says there is no such segment, but a COPY cut at the other target's window end
can make one. Log 9. -/
opaque partialBeats (length width : Nat) : Nat

/-- Free: the byte a write beat that begins at clock `clock` drives for byte `index` of its access, where that byte lies
past the end of such a segment. Log 9. -/
opaque strayByte (clock index : Nat) : BitVec 8

end Sys2Proof.Config
end

