-- ==== Sys2Proof/Machine/State.lean ====
section
/-! DEFINITION. The state of the OV2240, block by block, as plain data, and its value right after power-on reset. -/

namespace Sys2Proof.Machine

/-- Why the part stops. The spec names no event that stops it: a failure is a status code, a halt, a latch or a
quarantine. No command answers with a fault. -/
inductive Fault where
  deriving DecidableEq, Repr

/-- Why a command has no meaning. -/
inductive Refusal where
  /-- Raised by an arm of `exec` whose command has no meaning yet; no arm raises it. Safe: the machine only stops. -/
  | notModelled (mnemonic : String)
  deriving DecidableEq, Repr

/-! ### Codes -/

/-- The status and first-error codes of completion entries, transaction and control (11.3). -/
inductive Status where
  | ok | partialFail | aborted
  | malformedRecord | rangeError | alignmentError | classMismatch | writeProtected | lockScope
  | targetAbsent | targetQuarantined | profileReadError
  | deviceFault | retryExhausted | releaseLoop | holdTimeout | pollTimeout | targetReset
  | hostReadError
  | badQueue | queueBusy | notConfigured | badParameter | unknownCommand | notFound
  deriving DecidableEq, Repr

/-! ### Transaction Engine (R1) -/

/-- The states of a context (R1). -/
inductive CtxState where
  | free | loading | fenceWait | lockWait | preparing | busReady | onBus | timerWait | completing
  deriving DecidableEq, Repr

/-- The six kinds of op (2.1). -/
inductive OpKind where
  | write | read | fill | poll | copy | drain
  deriving DecidableEq, Repr

/-- An op record in parsed form, with the fields of 2.1. -/
structure Op where
  kind : OpKind := .write
  target : TargetId := 0
  addr : TargetAddr := 0
  /-- bytes to move, 1 to 65,536 (R26); for a POLL its width -/
  length : Nat := 1
  /-- RETURN -/
  ret : Bool := false
  /-- INLINE -/
  inline : Bool := false
  /-- the data field: host address, inline data or pattern -/
  data : BitVec 64 := 0
  /-- the byte that names a COPY's second target (R185) -/
  target2Byte : Byte := 0
  addr2 : TargetAddr := 0
  mask : BitVec 32 := 0
  matchValue : BitVec 32 := 0
  /-- NOT -/
  invert : Bool := false
  /-- µs between POLL attempts -/
  interval : Nat := 0
  /-- POLL attempts allowed, 1 to 65,535 -/
  attemptLimit : Nat := 1
  deriving DecidableEq, Repr

/-- The half of a COPY; every other op has only a source half (R15). -/
inductive Half where
  | source | destination
  deriving DecidableEq, Repr

/-- The state of a segment's host read (R1). -/
inductive HostRead where
  | notNeeded | pending | arrived | failed
  deriving DecidableEq, Repr

/-- A segment, current or staged (R1). `base` is the op's byte offset of the segment's first byte, the one at place 0 of
its chunk; `place` is how many bytes of it this half has already moved (R77), so that the access begins at offset
`base + place` and moves `len` bytes. -/
structure Segment where
  half : Half := .source
  target : TargetId := 0
  addr : TargetAddr := 0
  base : Nat := 0
  place : Nat := 0
  len : Nat := 0
  /-- what is left of a segment that FLOW stopped, which never passes the segment's end (R77; log 13). The model's own field
  (log 20). -/
  remainder : Bool := false
  hostRead : HostRead := .notNeeded
  /-- a read of the segment has returned a host error and others are still awaited (R125) -/
  readError : Bool := false
  /-- the data of the reads in flight will be discarded and the segment read again (R124) -/
  reread : Bool := false
  deriving DecidableEq, Repr

inductive TimerKind where
  | retry | poll | flow
  deriving DecidableEq, Repr

/-- The class, port, window, response and timing fields of a profile: those the profile snapshot holds (R44). Codes are
kept as loaded (11.2, Target profile). -/
structure BusProfile where
  /-- class code: 0 MEMORY, 1 STREAM, others bad -/
  cls : BitVec 2 := 0
  /-- port width code: 0 for 8 bits, 1 for 16, 2 for 32, others bad -/
  port : Byte := 0
  /-- window size code -/
  window : Byte := 0
  /-- RESPONSES enabled -/
  responses : Bool := false
  closeAfter : Bool := false
  setup : Nat := 0
  strobe : Nat := 0
  recovery : Nat := 0
  turnOff : Nat := 0
  holdLimit : Nat := 0
  deriving DecidableEq, Repr

/-- A target profile in parsed form (R86). -/
structure Profile where
  valid : Bool := false
  bus : BusProfile := {}
  writeProtect : Bool := false
  retryLimit : Nat := 0
  baseDelay : Nat := 0
  deriving DecidableEq, Repr

/-- Where a preparation goes on (R10): its first step, the profile lookup, the judgement of a copy just taken (of the
second profile when `second`), the chunk claim, or the test of the host data. -/
inductive Point where
  | start | lookup | judge (second : Bool) | claim | data
  deriving DecidableEq, Repr

/-- What a PREPARING context waits for: nothing (it is to take its steps), its profile load (R92), a chunk in the waiter
list or the lock-refused set (R118), one of its two chunks (R118), its host data (R10), the return of its reads before it
fails or aborts (R23, R24), or the freeing of the last op's chunks (R8). The model's own field (log 20). -/
inductive Prep where
  | none
  | run (p : Point)
  | waitProfile (second : Bool)
  | waitChunk | waitTwo | waitData | waitReads | waitFreed
  deriving DecidableEq, Repr

/-- A completion entry but for its phase marker (R19, R165, 11.2). -/
structure Entry where
  tag : BitVec 16 := 0
  queue : QueueId := 0
  status : Status := .ok
  first : Option Status := none
  /-- failing op: 1 to 15, or absent -/
  failing : Option Nat := none
  opsCompleted : Nat := 0
  opsFailed : Nat := 0
  bytes : BitVec 32 := 0
  totalRetries : Nat := 0
  ret : Option (BitVec 64) := none
  cookie : BitVec 32 := 0
  deriving DecidableEq, Repr

/-- A context (R1). The defaults are its FREE values. -/
structure Context where
  state : CtxState := .free
  queue : Option QueueId := none
  seq : BitVec 32 := 0
  tag : BitVec 16 := 0
  cookie : BitVec 32 := 0
  fence : Bool := false
  /-- policy CONTINUE; clear for STOP -/
  continues : Bool := false
  irqNow : Bool := false
  abortPending : Bool := false
  headerLoaded : Bool := false
  targetReset : Bool := false
  recheck : Bool := false
  /-- the op-level checks are due at step 4 of the preparation under way: the recheck mark as its lookups found it, so that
  a mark set after them stays for the next preparation (R31, R94). The model's own field (log 20). -/
  checking : Bool := false
  lockMask : BitVec 16 := 0
  ops : List Op := []
  opIndex : Option Nat := none
  offset : Nat := 0
  begun : Bool := false
  retries : Nat := 0
  releases : Nat := 0
  polls : Nat := 0
  /-- kind and due time in µs, or idle -/
  timer : Option (TimerKind × Nat) := none
  segment : Option Segment := none
  staged : Option Segment := none
  firstError : Option Status := none
  failing : Option Nat := none
  opsCompleted : Nat := 0
  opsFailed : Nat := 0
  totalRetries : Nat := 0
  returnData : Option (BitVec 64) := none
  bytes : BitVec 32 := 0
  /-- copies of the profiles of the op's target and, for a COPY, of its second target (R91) -/
  prof1 : Option Profile := none
  prof2 : Option Profile := none
  /-- the bytes an op reads into the context, before they become return data (R36) -/
  gathered : BitVec 64 := 0
  prep : Prep := .none
  /-- the header's op count, slot count and return index, and the slots loaded, until load end -/
  opCount : Nat := 0
  slotCount : Nat := 0
  returnIndex : Nat := 0
  slots : List (Nat × List Byte) := []
  /-- the entry assembled on entering COMPLETING (R19), and whether it has been handed (R21) -/
  entry : Option Entry := none
  handed : Bool := false
  deriving DecidableEq, Repr

/-! ### Register window (11.1) -/

inductive IndexErrorKind where
  | tailRange | headRange | queueState | badQueue
  deriving DecidableEq, Repr

structure Regs where
  /-- CONTROL.ENABLE and STATUS.ENABLED (R181) -/
  enabled : Bool := false
  irqEnable : Bool := false
  /-- STATUS.RESETTING (R182) -/
  resetting : Bool := false
  /-- the index error latch: kind and queue field of the first failing INDEX_PORT write (R138) -/
  indexError : Option (IndexErrorKind × BitVec 4) := none
  /-- HALTED mask: bit n − 1 for queue n (R183) -/
  haltedMask : BitVec 8 := 0
  ctlqRing : BitVec 64 := 0
  ctlqCpl : BitVec 64 := 0
  profileBase : BitVec 64 := 0
  /-- the profile table base an enable sampled (R88) -/
  profileTable : HostAddr := 0
  deriving DecidableEq, Repr

/-! ### Queue Manager (R130) -/

inductive QueueState where
  | disabled | active | stopping | halted
  deriving DecidableEq, Repr

inductive HaltReason where
  | none | fetchError | shortRecord
  deriving DecidableEq, Repr

/-- A row of the queue table (R130). The defaults are its reset values. -/
structure QueueRow where
  state : QueueState := .disabled
  configured : Bool := false
  subBase : HostAddr := 0
  subSize : Nat := 16
  subHead : Nat := 0
  subTail : Nat := 0
  cplBase : HostAddr := 0
  cplSize : Nat := 16
  cplTail : Nat := 0
  cplHead : Nat := 0
  phase : Bool := true
  reserved : Nat := 0
  outstanding : Nat := 0
  limit : Nat := 1
  weight : Nat := 1
  threshold : Nat := 1
  delay : Nat := 0
  count : Nat := 0
  /-- delay timer: idle, or due at this µs -/
  delayTimer : Option Nat := none
  messageDue : Bool := false
  haltReason : HaltReason := .none
  refused : Bool := false
  deriving DecidableEq, Repr

/-! ### Record Fetcher (R149) -/

inductive FetchPhase where
  | header | extension
  deriving DecidableEq, Repr

structure FetchRecord where
  context : CtxId
  firstSlot : Nat
  phase : FetchPhase := .header
  expected : Nat := 1
  loaded : Nat := 0
  inFlight : Nat := 0
  error : Bool := false
  deriving DecidableEq, Repr

structure Fetcher where
  /-- the queue last served, or 0 -/
  pointer : Nat := 0
  /-- one fetch record for each of queues 1 to 8, or idle -/
  records : Vector (Option FetchRecord) 8 := Vector.replicate 8 none
  deriving DecidableEq, Repr

/-! ### Host Port (R158) -/

inductive ReqClass where
  | fetcher | controlFetch | profileLoader | dataMover
  deriving DecidableEq, Repr

/-- A requester's reference (R158): a slot of a context's record, the control slot, a profile row, or a chunk place. -/
inductive ReadRef where
  | slot (queue : QueueId) (context : CtxId) (n : Nat)
  | control
  | profile (target : TargetId)
  | data (context : CtxId) (chunk : ChunkId) (place : Nat)
  deriving DecidableEq, Repr

/-- A read listed and not yet granted a tag. -/
structure ReadReq where
  ref : ReadRef
  addr : HostAddr
  len : Nat
  deriving DecidableEq, Repr

inductive Tag where
  | free
  | inFlight (read : ReadReq) (issued : Nat)
  | stale (since : Nat)
  deriving DecidableEq, Repr

/-- A posted write (R161): a completion entry with its place's address and phase marker, READ or DRAIN data out of a
chunk, or an interrupt message. -/
inductive PostedWrite where
  | entry (queue : QueueId) (context : Option CtxId) (irqNow : Bool) (addr : HostAddr) (phase : Bool) (entry : Entry)
  | data (context : CtxId) (chunk : ChunkId) (addr : HostAddr) (bytes : List Byte)
  | message (vector : QueueId)
  deriving DecidableEq, Repr

structure HostPort where
  tags : Vector Tag 8 := Vector.replicate 8 .free
  classPtr : Option ReqClass := none
  fetcherReads : List ReadReq := []
  controlReads : List ReadReq := []
  loaderReads : List ReadReq := []
  /-- the data mover read list (R116) -/
  moverReads : List ReadReq := []
  issueQueue : List PostedWrite := []
  /-- writes held by their blocks until the issue queue has a place (R161) -/
  held : List PostedWrite := []
  deriving DecidableEq, Repr

/-! ### Profile Cache (R89) -/

structure CacheEntry where
  target : TargetId
  profile : Profile
  deriving DecidableEq, Repr

structure FetchRow where
  loading : Bool := false
  cancelled : Bool := false
  waiters : List CtxId := []
  deriving DecidableEq, Repr

structure ProfileCache where
  entries : Vector (Option CacheEntry) 4 := Vector.replicate 4 none
  /-- recency order, most recently used first -/
  recency : List EntryId := []
  rows : Vector FetchRow 16 := Vector.replicate 16 {}
  deriving DecidableEq, Repr

/-! ### Bus Controller (R44) -/

inductive Direction where
  | read | write
  deriving DecidableEq, Repr

/-- The phase of an access; in `beats` the beat running is the one after those done. -/
inductive BusPhase where
  | turnOffWait | openPhase | beats
  deriving DecidableEq, Repr

structure Access where
  owner : CtxId
  half : Half
  target : TargetId
  direction : Direction
  start : TargetAddr
  beats : Nat
  snapshot : BusProfile
  phase : BusPhase
  beatsDone : Nat := 0
  /-- hold timer: idle, or its start time in µs -/
  holdTimer : Option Nat := none
  deriving DecidableEq, Repr

/-- The bus state with what belongs to it: the access record in ACCESS, the pulse's end time in µs in RESET_PULSE, with
whether the pulse is the power-on one (log 19). -/
inductive BusState where
  | idle
  | access (a : Access)
  | resetPulse (until_ : Nat) (powerOn : Bool)
  deriving DecidableEq, Repr

structure Window where
  target : TargetId
  base : TargetAddr
  cls : BitVec 2
  code : Byte
  deriving DecidableEq, Repr

/-- The pins the part drives (11.4). -/
structure Pins where
  tsel : BitVec 16 := 0
  ta : TargetAddr := 0
  /-- the lanes of TD the part drives, with their bytes -/
  driven : List (Nat × Byte) := []
  trd : Bool := false
  twr : Bool := false
  tbe : BitVec 4 := 0
  treset : Bool := false
  deriving DecidableEq, Repr

structure BusCtl where
  state : BusState := .idle
  window : Option Window := none
  closePending : Bool := false
  lastQueue : Nat := 0
  queueRun : Nat := 0
  localityRun : Nat := 0
  /-- turn-off record: a target and an end time in target-bus clocks -/
  turnOff : Option (TargetId × Nat) := none
  pulsePending : Bool := false
  /-- RSTT requests attached to the pulse in progress and to the next, counted in the order they joined (log 19) -/
  attachedNow : Nat := 0
  attachedNext : Nat := 0
  pins : Pins := {}
  deriving DecidableEq, Repr

/-! ### Target State Table (R79), Lock Table (R103), Staging Pool (R116) -/

/-- A row of the Target State Table: NORMAL (`none`), or QUARANTINED for HOLD_TIMEOUT with a tag and a queue. -/
abbrev TargetRow := Option (BitVec 16 × QueueId)

structure LockWaiter where
  context : CtxId
  seq : BitVec 32
  set : BitVec 16
  deriving DecidableEq, Repr

structure LockTable where
  rows : Vector (Option CtxId) 16 := Vector.replicate 16 none
  waiters : List LockWaiter := []
  deriving DecidableEq, Repr

/-- A chunk's role; `ended` is a chunk whose segment has ended or was discarded, held only for reads or writes of it
still to come (R122; log 20). -/
inductive Role where
  | current | staged | ended
  deriving DecidableEq, Repr

structure ChunkHold where
  context : CtxId
  role : Role
  targets : List TargetId
  length : Nat
  deriving DecidableEq, Repr

structure Claim where
  context : CtxId
  targets : List TargetId
  deriving DecidableEq, Repr

/-- The staging memory as address and byte pairs in canonical form: addresses strictly rising, no byte 0 listed. -/
abbrev Memory := List Host.Cell

structure Pool where
  chunks : Vector (Option ChunkHold) 24 := Vector.replicate 24 none
  waiters : List Claim := []
  refused : List Claim := []
  memory : Memory := []
  deriving DecidableEq, Repr

/-! ### Control Unit (R163) -/

inductive ControlState where
  | idle | reserving | reading | held | readFailed
  deriving DecidableEq, Repr

/-- A control record's fields (11.2, Control record). -/
structure ControlRecord where
  command : Byte := 0
  tag : BitVec 16 := 0
  queue : Byte := 0
  target : Byte := 0
  mode : Byte := 0
  matchTag : BitVec 16 := 0
  value : BitVec 32 := 0
  subBase : HostAddr := 0
  cplBase : HostAddr := 0
  subCode : Byte := 0
  cplCode : Byte := 0
  limit : Byte := 0
  weight : Byte := 0
  threshold : Byte := 0
  delay : BitVec 16 := 0
  deriving DecidableEq, Repr

/-- What a pending control list entry waits for: "queue n reaches DISABLED", with the mode and the contexts marked, or
"reset pulse ends". -/
inductive PendingKind where
  | disq (queue : QueueId) (abortMode : Bool) (marked : Nat)
  | rstt
  deriving DecidableEq, Repr

structure PendingEntry where
  tag : BitVec 16
  kind : PendingKind
  deriving DecidableEq, Repr

structure ControlUnit where
  state : ControlState := .idle
  hand : Option ControlRecord := none
  pendingList : List PendingEntry := []
  deriving DecidableEq, Repr

/-! ### The machine -/

/-- The whole state of the part, with the queue of commands that wait. -/
structure State where
  /-- target-bus clocks of 20 ns since the start (log 2) -/
  clock : Nat := 0
  regs : Regs := {}
  queues : Vector QueueRow 9 := Vector.replicate 9 {}
  fetcher : Fetcher := {}
  port : HostPort := {}
  contexts : Vector Context 16 := Vector.replicate 16 {}
  /-- the sequence counter (R2) -/
  seqCounter : BitVec 32 := 0
  cache : ProfileCache := {}
  bus : BusCtl := {}
  targets : Vector TargetRow 16 := Vector.replicate 16 none
  locks : LockTable := {}
  pool : Pool := {}
  control : ControlUnit := {}
  pending : List Instr := []
  deriving DecidableEq, Repr

/-- The machine right after power-on reset: every block at its power-on values, the bus in the 100 µs power-on pulse with
TRESET asserted (R44, R66). -/
def State.reset : State where
  bus := { state := .resetPulse 100 true, pins := { treset := true } }

end Sys2Proof.Machine
end

