-- ==== Sys2Proof/Machine/Operands.lean ====
section
/-! DEFINITION. Reading records, profiles and control records from their bytes (11.2, R185), the arithmetic of segments
and windows (R9, R47), the bytes of a beat (R32, R37, R50) and the op-level checks (R29, R31). -/

namespace Sys2Proof.Machine

/-! ### Bytes -/

/-- Byte `i` of a record; a byte past its end reads 0. -/
def byteAt (l : List Byte) (i : Nat) : Byte := l.getD i 0

/-- The little-endian 16-bit field at byte `i` (00_scope.md, Byte order). -/
def half16 (l : List Byte) (i : Nat) : BitVec 16 := byteAt l (i + 1) ++ byteAt l i

def word32 (l : List Byte) (i : Nat) : BitVec 32 := half16 l (i + 2) ++ half16 l i

def word64 (l : List Byte) (i : Nat) : BitVec 64 := word32 l (i + 4) ++ word32 l i

/-- The 24-bit target address at byte `i`. -/
def addr24 (l : List Byte) (i : Nat) : TargetAddr := byteAt l (i + 2) ++ half16 l i

/-- Byte `i` of an 8-byte field, least significant first; none past byte 7. -/
def fieldByte (v : BitVec 64) (i : Nat) : Byte := v.extractLsb' (8 * i) 8

/-- `v` with its byte `i` replaced. -/
def setFieldByte (v : BitVec 64) (i : Nat) (b : Byte) : BitVec 64 :=
  (v &&& ~~~(0xFF#64 <<< (8 * i))) ||| (b.setWidth 64 <<< (8 * i))

/-- The bytes of `v`, `n` of them, least significant first. -/
def littleEndian (n : Nat) (v : Nat) : List Byte :=
  match n with
  | 0 => []
  | n + 1 => BitVec.ofNat 8 v :: littleEndian n (v / 256)

/-- The lock mask names target `t` (11.2: bit t names target t). -/
def maskHas (m : BitVec 16) (t : TargetId) : Bool := m.getLsbD t.val

/-! ### Transaction records (11.2) -/

/-- The fields of a transaction record header. -/
structure Header where
  tag : BitVec 16
  opCount : Nat
  slotCount : Nat
  continues : Bool
  fence : Bool
  irqNow : Bool
  returnIndex : Nat
  lockMask : BitVec 16
  cookie : BitVec 32
  deriving DecidableEq, Repr

/-- The header in bytes 0 to 15 of the first slot. -/
def parseHeader (slot : List Byte) : Header where
  tag := half16 slot 0
  opCount := (byteAt slot 2).toNat % 16
  slotCount := (byteAt slot 2).toNat / 16 % 8
  continues := (byteAt slot 3).getLsbD 0
  fence := (byteAt slot 3).getLsbD 1
  irqNow := (byteAt slot 3).getLsbD 2
  returnIndex := (byteAt slot 4).toNat % 16
  lockMask := half16 slot 6
  cookie := word32 slot 8

/-- An op record of 16 bytes (11.2, R26, R185); `ret` is its RETURN flag. Fields a kind ignores keep their defaults. -/
def parseOp (r : List Byte) (ret : Bool) : Op :=
  let b0 := byteAt r 0
  let target : TargetId := Fin.ofNat 16 (b0.toNat / 16)
  let plain (kind : OpKind) : Op :=
    { kind, target, addr := addr24 r 1, length := (half16 r 4).toNat + 1, ret, data := word64 r 8 }
  let poll (width : Nat) : Op :=
    { kind := .poll, target, addr := addr24 r 1, length := width, ret, invert := b0.getLsbD 3,
      interval := (half16 r 4).toNat, attemptLimit := max 1 (half16 r 6).toNat,
      mask := word32 r 8, matchValue := word32 r 12 }
  match b0.toNat % 8 with
  | 0 => { plain .write with inline := b0.getLsbD 3 }
  | 1 => plain .read
  | 2 => plain .fill
  | 3 => { plain .copy with data := 0, addr2 := addr24 r 8, target2Byte := byteAt r 11 }
  | 4 => plain .drain
  | 5 => poll 1
  | 6 => poll 2
  | _ => poll 4

/-- The slot and the byte within it at which op `k` lies: ops 1 to 3 in slot 0 at 16k, then four to a slot. -/
def opPlace (k : Nat) : Nat × Nat :=
  if k ≤ 3 then (0, 16 * k) else ((k - 4) / 4 + 1, 16 * ((k - 4) % 4))

/-- The bytes of slot `n` of a record. -/
def slotBytes (slots : List (Nat × List Byte)) (n : Nat) : List Byte :=
  (slots.find? fun p => p.1 == n).elim [] (·.2)

/-- Ops 1 to `opCount` of a record, in record order. -/
def recordOps (slots : List (Nat × List Byte)) (opCount returnIndex : Nat) : List Op :=
  (List.range opCount).map fun i =>
    let k := i + 1
    parseOp ((slotBytes slots (opPlace k).1).drop (opPlace k).2 |>.take 16) (returnIndex == k)

/-- The record-level checks on one op (R27). -/
def opWellMade (o : Op) : Bool :=
  (!o.ret || (o.kind == .read && decide (o.length ≤ 8)) || o.kind == .poll)
    && (!o.inline || decide (o.length ≤ 8))
    && (o.kind != .copy || decide (o.target2Byte.toNat ≤ 15))

/-- The record-level checks (R27): op count against slot count, return index, RETURN, INLINE, COPY second target. -/
def recordOk (slotCount opCount returnIndex : Nat) (ops : List Op) : Bool :=
  decide (1 ≤ opCount) && decide (opCount / 4 + 1 = slotCount) && decide (returnIndex ≤ opCount)
    && ops.all opWellMade

/-! ### Control records and profiles (11.2) -/

def parseControl (slot : List Byte) : ControlRecord where
  command := byteAt slot 0
  tag := half16 slot 2
  queue := byteAt slot 4
  target := byteAt slot 5
  mode := byteAt slot 6
  matchTag := half16 slot 8
  value := word32 slot 12
  subBase := word64 slot 16
  cplBase := word64 slot 24
  subCode := byteAt slot 32
  cplCode := byteAt slot 33
  limit := byteAt slot 34
  weight := byteAt slot 35
  threshold := byteAt slot 36
  delay := half16 slot 38

def parseProfile (b : List Byte) : Profile where
  valid := (byteAt b 0).getLsbD 0
  bus :=
    { cls := (byteAt b 0).extractLsb' 1 2
      port := byteAt b 1
      window := byteAt b 2
      responses := (byteAt b 0).getLsbD 3
      closeAfter := (byteAt b 0).getLsbD 4
      setup := (byteAt b 3).toNat % 16
      strobe := (byteAt b 3).toNat / 16
      recovery := (byteAt b 4).toNat % 16
      turnOff := (byteAt b 4).toNat / 16
      holdLimit := (half16 b 8).toNat % 4096 }
  writeProtect := (byteAt b 0).getLsbD 5
  retryLimit := (byteAt b 5).toNat % 16
  baseDelay := (byteAt b 6).toNat

/-- What a context finds a profile to be (R87). -/
inductive Judgement where
  | good | notValid | bad
  deriving DecidableEq, Repr

/-- R87: not valid when the valid flag is clear, bad when a field lies outside its range. -/
def judgeProfile (p : Profile) : Judgement :=
  if !p.valid then .notValid
  else if p.bus.cls.toNat ≤ 1 ∧ p.bus.port.toNat ≤ 2
      ∧ (p.bus.window = 0 ∨ (8 ≤ p.bus.window.toNat ∧ p.bus.window.toNat ≤ 20))
      ∧ p.bus.holdLimit ≠ 0 ∧ p.baseDelay ≠ 0 then .good
  else .bad

/-! ### Class, port and window -/

def BusProfile.isMemory (p : BusProfile) : Bool := p.cls == 0#2

def BusProfile.isStream (p : BusProfile) : Bool := p.cls == 1#2

/-- Port width in bytes. -/
def BusProfile.width (p : BusProfile) : Nat :=
  match p.port.toNat with
  | 0 => 1
  | 1 => 2
  | _ => 4

/-- A MEMORY target with a window: size code 8 to 20. -/
def BusProfile.windowed (p : BusProfile) : Bool :=
  p.isMemory && decide (8 ≤ p.window.toNat ∧ p.window.toNat ≤ 20)

/-- R47, last condition: the snapshot allows a held window. -/
def BusProfile.holdsWindow (p : BusProfile) : Bool :=
  !p.closeAfter && (p.windowed || p.isStream)

/-- An access's window base (R47): rounded down to a multiple of 2^k for a windowed MEMORY target, else the start. -/
def windowBase (p : BusProfile) (start : TargetAddr) : TargetAddr :=
  if p.windowed then start - BitVec.ofNat 24 (start.toNat % 2 ^ p.window.toNat) else start

/-- The bytes from target address `a` to its window's end, or 256 for a target whose segments no window cuts (R9). -/
def windowRoom (p : BusProfile) (a : Nat) : Nat :=
  if p.windowed then 2 ^ p.window.toNat - a % 2 ^ p.window.toNat else 256

/-! ### Ops and segments -/

/-- A COPY's second target. -/
def Op.target2 (o : Op) : TargetId := Fin.ofNat 16 o.target2Byte.toNat

def Op.isCopy (o : Op) : Bool := o.kind == .copy

/-- The targets an op touches: both for a COPY. -/
def Op.targets (o : Op) : List TargetId := if o.isCopy then [o.target, o.target2] else [o.target]

/-- The target of a half. -/
def Op.targetOf (o : Op) (h : Half) : TargetId :=
  match h with
  | .source => o.target
  | .destination => o.target2

/-- The target address a half starts from. -/
def Op.addrOf (o : Op) (h : Half) : TargetAddr :=
  match h with
  | .source => o.addr
  | .destination => o.addr2

/-- WRITE from a host buffer. -/
def Op.readsHost (o : Op) : Bool := o.kind == .write && !o.inline

/-- READ to a host buffer, or DRAIN: its data are written to host memory. -/
def Op.writesHost (o : Op) : Bool := (o.kind == .read && !o.ret) || o.kind == .drain

/-- The op moves its data through staging memory (R10, step 6). -/
def Op.usesChunk (o : Op) : Bool := o.readsHost || o.writesHost || o.isCopy

/-- R45: read for READ, DRAIN, POLL and a COPY's source half, write for the rest. -/
def Op.direction (o : Op) (h : Half) : Direction :=
  match o.kind, h with
  | .read, _ | .drain, _ | .poll, _ | .copy, .source => .read
  | _, _ => .write

/-- The target address of byte `offset` of a half (R32): ascending for MEMORY, the fixed address otherwise. -/
def Op.addrAt (o : Op) (h : Half) (p : BusProfile) (offset : Nat) : TargetAddr :=
  if p.isMemory then o.addrOf h + BitVec.ofNat 24 offset else o.addrOf h

/-- The length of a segment of half `h` that begins at byte `start` of the op and may not pass byte `limit` (R9): cut at
256 bytes and at the window ends, a COPY's source half at both targets'. A POLL's segment is its width. -/
def segmentLength (o : Op) (h : Half) (p1 p2 : BusProfile) (start limit : Nat) : Nat :=
  if o.kind = .poll then o.length
  else
    let room1 := if h = .source then windowRoom p1 (o.addr.toNat + start) else 256
    let room2 := if o.isCopy then windowRoom p2 (o.addr2.toNat + start) else 256
    min (min 256 (limit - start)) (min room1 room2)

/-- The beats of an access (R50): one for a POLL attempt, else the length over the port width. A length that is no whole
number of beats has a free number of them (log 9). -/
def accessBeats (o : Op) (p : BusProfile) (length : Nat) : Nat :=
  if o.kind = .poll then 1
  else if length % p.width = 0 then length / p.width
  else 1 + Config.partialBeats length p.width % 256

/-- The bytes moved by `beats` beats: beats times the port width (R54), never more than the segment (log 9). -/
def bytesMoved (p : BusProfile) (beats length : Nat) : Nat := min length (beats * p.width)

/-- A host range cut at the 4 KiB boundary it crosses (R124, R126): one or two pieces. -/
def pageSplit (a : HostAddr) (n : Nat) : List (HostAddr × Nat) :=
  let room := 4096 - a.toNat % 4096
  if n ≤ room then [(a, n)] else [(a, room), (a + BitVec.ofNat 64 room, n - room)]

/-! ### Beats -/

/-- The bytes of a beat: as many as the port is wide, or a POLL's own (R32). -/
def beatSize (o : Op) (p : BusProfile) : Nat := if o.kind = .poll then min o.length p.width else p.width

/-- The lane of byte `j` of a beat at target address `a`: the byte at address b travels on lane b modulo the width (R50). -/
def laneOf (p : BusProfile) (a : TargetAddr) (j : Nat) : Nat := (a.toNat + j) % p.width

/-- The byte of a beat at address `a` whose lane is `l`. -/
def byteOfLane (p : BusProfile) (a : TargetAddr) (l : Nat) : Nat := (l + p.width - a.toNat % p.width) % p.width

/-- The lanes a beat at `a` enables, each with its byte of the beat: the whole port, or a POLL's own bytes (R32, R50). -/
def beatLanes (o : Op) (p : BusProfile) (a : TargetAddr) : List (Nat × Nat) :=
  ((List.range p.width).map fun l => (l, byteOfLane p a l)).filter fun x => decide (x.2 < beatSize o p)

/-- The byte-lane mask with the lanes given (R50). -/
def laneMask (lanes : List Nat) : BitVec 4 := lanes.foldl (fun m l => m ||| (1#4 <<< l)) 0

/-- The byte on lane `i` of the data lines. -/
def laneByte (lines : BitVec 32) (i : Nat) : Byte := lines.extractLsb' (8 * i) 8

/-- The bytes a read beat takes, in order of target address. -/
def beatBytes (o : Op) (p : BusProfile) (a : TargetAddr) (lines : BitVec 32) : List Byte :=
  (List.range (beatSize o p)).map fun j => laneByte lines (laneOf p a j)

/-- The address of beat `i`, counted from 0 (R50). -/
def beatAddr (p : BusProfile) (start : TargetAddr) (i : Nat) : TargetAddr :=
  if p.isMemory then start + BitVec.ofNat 24 (i * p.width) else start

/-- A POLL's test (R38). -/
def pollMatches (o : Op) (value : BitVec 32) : Bool :=
  ((value &&& o.mask) == o.matchValue) != o.invert

/-! ### Op-level checks -/

/-- Alignment of an op at byte offset `off` against one target (R29 check 2, R31). -/
def alignedFor (o : Op) (h : Half) (p : BusProfile) (off : Nat) : Bool :=
  if o.kind = .poll then decide (o.length ≤ p.width ∧ o.addr.toNat % o.length = 0)
  else decide ((if p.isMemory then (o.addrOf h).toNat + off else (o.addrOf h).toNat) % p.width = 0
    ∧ (o.length - off) % p.width = 0)

/-- The code of the first condition that does not hold. -/
def firstFailure : List (Bool × Status) → Option Status
  | [] => none
  | (holds, code) :: rest => if holds then firstFailure rest else some code

/-- The op-level checks in their order (R29), at byte offset `off` (R31). -/
def opChecks (o : Op) (lockMask : BitVec 16) (p1 p2 : Profile) (off : Nat) : Option Status :=
  firstFailure [
    (decide (o.addr.toNat + o.length ≤ 2 ^ 24), .rangeError),
    (!o.isCopy || decide (o.addr2.toNat + o.length ≤ 2 ^ 24), .rangeError),
    (alignedFor o .source p1.bus off, .alignmentError),
    (!o.isCopy || alignedFor o .destination p2.bus off, .alignmentError),
    (o.kind != .drain || p1.bus.isStream, .classMismatch),
    (!(o.kind == .write || o.kind == .fill) || !p1.writeProtect, .writeProtected),
    (!o.isCopy || !p2.writeProtect, .writeProtected),
    (decide (lockMask = 0) || o.targets.all (maskHas lockMask), .lockScope)]

/-- The checks repeated for a COPY's destination half against the second target's new profile (R31; log 28). -/
def destinationChecks (o : Op) (p2 : Profile) (off : Nat) : Option Status :=
  firstFailure [
    (alignedFor o .destination p2.bus off, .alignmentError),
    (!p2.writeProtect, .writeProtected)]

end Sys2Proof.Machine
end

