-- ==== Sys2Proof/Machine/Flags.lean ====
section
/-! DEFINITION. Codes and words the part shows: status bytes and completion entries (11.2, 11.3, R186), and what the host
reads from the register window (11.1, R180 to R184). -/

namespace Sys2Proof.Machine

/-- The code of a status (11.3). -/
def Status.byte : Status → Byte
  | .ok => 0x00 | .partialFail => 0x01 | .aborted => 0x02
  | .malformedRecord => 0x10 | .rangeError => 0x11 | .alignmentError => 0x12 | .classMismatch => 0x13
  | .writeProtected => 0x14 | .lockScope => 0x15
  | .targetAbsent => 0x20 | .targetQuarantined => 0x21 | .profileReadError => 0x22
  | .deviceFault => 0x30 | .retryExhausted => 0x31 | .releaseLoop => 0x32 | .holdTimeout => 0x33
  | .pollTimeout => 0x34 | .targetReset => 0x35
  | .hostReadError => 0x40
  | .badQueue => 0x50 | .queueBusy => 0x51 | .notConfigured => 0x52 | .badParameter => 0x53
  | .unknownCommand => 0x54 | .notFound => 0x55

/-- The BAD_PROFILE detail value (R186). -/
def badProfileDetail : BitVec 32 := 0xFFFFFFFF

/-- The 32 bytes of a completion entry (11.2). -/
def entryBytes (e : Entry) (phase : Bool) : List Byte :=
  littleEndian 2 e.tag.toNat
    ++ [BitVec.ofNat 8 e.queue.val, e.status.byte, e.first.elim 0 Status.byte, BitVec.ofNat 8 (e.failing.getD 0),
      BitVec.ofNat 8 e.opsCompleted, BitVec.ofNat 8 e.opsFailed]
    ++ littleEndian 4 e.bytes.toNat ++ littleEndian 2 e.totalRetries
    ++ [if e.ret.isSome then 1 else 0, if phase then 1 else 0]
    ++ littleEndian 8 (e.ret.getD 0).toNat ++ littleEndian 4 e.cookie.toNat ++ [0, 0, 0, 0]

/-- What a posted write puts into host memory: an address and bytes; none for an interrupt message. -/
def postedImage : PostedWrite → Option (HostAddr × List Byte)
  | .entry _ _ _ addr phase e => some (addr, entryBytes e phase)
  | .data _ _ addr bytes => some (addr, bytes)
  | .message _ => none

/-- The code of an index error kind (11.1). -/
def IndexErrorKind.code : IndexErrorKind → Nat
  | .tailRange => 1 | .headRange => 2 | .queueState => 3 | .badQueue => 4

/-- QRYQ's code of a queue state (R186). -/
def QueueState.code : QueueState → Nat
  | .disabled => 0 | .active => 1 | .stopping => 2 | .halted => 3

/-- QRYQ's code of a halt reason (R186). -/
def HaltReason.code : HaltReason → Nat
  | .none => 0 | .fetchError => 1 | .shortRecord => 2

/-- IDENT (R184): part code, revision, queues, targets, contexts, chunks. -/
def identWord : BitVec 64 := 0x0018101008012240

/-- CONTROL as read: ENABLE and IRQ_ENABLE; RESET reads 0 (R181). -/
def controlWord (r : Regs) : BitVec 64 :=
  BitVec.ofNat 64 (r.enabled.toNat + 4 * r.irqEnable.toNat)

/-- STATUS as read (11.1, R183). -/
def statusWord (r : Regs) : BitVec 64 :=
  BitVec.ofNat 64 (r.enabled.toNat + 2 * r.resetting.toNat + 4 * r.indexError.isSome.toNat
    + 16 * (r.indexError.elim 0 fun e => e.1.code) + 256 * (r.indexError.elim 0 fun e => e.2.toNat)
    + 65536 * r.haltedMask.toNat)

/-- The 64-bit register at an offset (11.1); an offset with no register, and INDEX_PORT, read 0 (R180). -/
def registerWord (r : Regs) (offset : Nat) : BitVec 64 :=
  match offset with
  | 0x00 => identWord
  | 0x08 => controlWord r
  | 0x10 => statusWord r
  | 0x18 => r.ctlqRing
  | 0x20 => r.ctlqCpl
  | 0x28 => r.profileBase
  | _ => 0

/-- What a host read of the register window gives: a whole register, or its lower or upper half (R180). Reads change no
state, so they are no command (log 26). -/
def readRegister (r : Regs) (offset : BitVec 8) (width : Width) : BitVec 64 :=
  let word := registerWord r (offset.toNat / 8 * 8)
  match width with
  | .full => word
  | .half => if offset.toNat % 8 = 0 then word &&& 0xFFFFFFFF else word >>> 32

/-- `old` with the written half replaced: the other half keeps its value (R180). -/
def mergeWrite (old : BitVec 64) (offset : BitVec 8) (width : Width) (value : BitVec 64) : BitVec 64 :=
  match width with
  | .full => value
  | .half =>
    if offset.toNat % 8 = 0 then (old &&& 0xFFFFFFFF00000000) ||| (value &&& 0xFFFFFFFF)
    else (old &&& 0xFFFFFFFF) ||| (value <<< 32)

/-- The bits of CTLQ_RING and CTLQ_CPL that hold fields: bits 4 to 11 read as 0 (R184). -/
def ringFields : BitVec 64 := 0xFFFFFFFFFFFFF00F

/-- The bits of PROFILE_BASE that hold a field: bits 0 to 11 read as 0 (R184). -/
def baseFields : BitVec 64 := 0xFFFFFFFFFFFFF000

/-- The size code of a ring register (11.1). -/
def ringCode (r : BitVec 64) : Nat := r.toNat % 16

/-- A size code that gives 16 to 4,096 slots or entries (R181). -/
def codeOk (c : Nat) : Bool := decide (4 ≤ c ∧ c ≤ 12)

end Sys2Proof.Machine
end

