-- ==== Sys2Proof/Machine/Ops.lean ====
section
/-! DEFINITION. The named operations over the state that every family shares: time, staging memory, one context, one
queue row, the Host Port's lists and its issue queue, moderation and messages, and ages. -/

namespace Sys2Proof.Machine

/-! ### Time (00_scope.md, Time; R46) -/

/-- The present time on the 1 µs timebase: fifty target-bus clocks to the microsecond. -/
def State.now (s : State) : Nat := s.clock / 50

/-- Time moves on by `n` target-bus clocks. -/
def State.elapse (s : State) (n : Nat) : State := { s with clock := s.clock + n }

/-- Time moves on to at least the clock `t` (log 3). -/
def State.until (s : State) (t : Nat) : State := { s with clock := max s.clock t }

/-- Time moves on to at least the microsecond `t` (log 3). -/
def State.untilUs (s : State) (t : Nat) : State := s.until (50 * t)

/-! ### Staging memory -/

/-- A byte of staging memory; an unlisted address reads 0 (log 11). -/
def Memory.read : Memory → Nat → Byte
  | [], _ => 0
  | (b, v) :: rest, a => if b = a then v else Memory.read rest a

/-- A byte written, in canonical form: writing 0 takes the address out of the list. -/
def Memory.write : Memory → Nat → Byte → Memory
  | [], a, v => if v = 0 then [] else [(a, v)]
  | (b, w) :: rest, a, v =>
    if a < b then (if v = 0 then (b, w) :: rest else (a, v) :: (b, w) :: rest)
    else if a = b then (if v = 0 then rest else (a, v) :: rest)
    else (b, w) :: Memory.write rest a v

/-- Bytes written at rising addresses from `a`. -/
def Memory.writeBytes (m : Memory) (a : Nat) : List Byte → Memory
  | [] => m
  | v :: rest => Memory.writeBytes (m.write a v) (a + 1) rest

/-- The canonical form: addresses strictly rising from `low` on, no byte 0 listed. -/
def Memory.wfFrom (low : Nat) : Memory → Bool
  | [] => true
  | (a, v) :: rest => decide (low ≤ a) && v != 0 && Memory.wfFrom (a + 1) rest

def Memory.wf (m : Memory) : Bool := Memory.wfFrom 0 m

/-- The address in staging memory of place `p` of chunk `k` (R116). -/
def chunkAddr (k : ChunkId) (p : Nat) : Nat := 256 * k.val + p

/-- `n` bytes of staging memory from address `a`. -/
def Memory.readBytes (m : Memory) (a n : Nat) : List Byte := (List.range n).map fun i => m.read (a + i)

/-! ### One context, one queue row -/

def State.ctx (s : State) (c : CtxId) : Context := s.contexts[c]

def State.modCtx (s : State) (c : CtxId) (f : Context → Context) : State :=
  { s with contexts := s.contexts.set c (f s.contexts[c]) }

def State.setPrep (s : State) (c : CtxId) (p : Prep) : State := s.modCtx c fun x => { x with prep := p }

def State.queue (s : State) (q : QueueId) : QueueRow := s.queues[q]

def State.modQueue (s : State) (q : QueueId) (f : QueueRow → QueueRow) : State :=
  { s with queues := s.queues.set q (f s.queues[q]) }

def State.modPort (s : State) (f : HostPort → HostPort) : State := { s with port := f s.port }

def State.modBus (s : State) (f : BusCtl → BusCtl) : State := { s with bus := f s.bus }

def State.modPool (s : State) (f : Pool → Pool) : State := { s with pool := f s.pool }

def State.modLocks (s : State) (f : LockTable → LockTable) : State := { s with locks := f s.locks }

def State.modCache (s : State) (f : ProfileCache → ProfileCache) : State := { s with cache := f s.cache }

def State.modControl (s : State) (f : ControlUnit → ControlUnit) : State := { s with control := f s.control }

def State.modRegs (s : State) (f : Regs → Regs) : State := { s with regs := f s.regs }

/-- The current op (R1). -/
def Context.op (x : Context) : Option Op := x.opIndex.bind fun k => x.ops[k - 1]?

/-- The targets of the current op. -/
def Context.opTargets (x : Context) : List TargetId := x.op.elim [] Op.targets

/-- The half of the current segment; a segment not cut yet is a source half. -/
def Context.half (x : Context) : Half := x.segment.elim .source (·.half)

/-- The profile copy of a half's own target (R91). -/
def Context.profileOf (x : Context) (h : Half) : Profile :=
  match h with
  | .source => x.prof1.getD {}
  | .destination => x.prof2.getD {}

/-- The context's op names target `t`, as its target or either target of a COPY (R94). -/
def Context.names (x : Context) (t : TargetId) : Bool := x.opTargets.contains t

/-! ### Ages (00_scope.md, Ages) -/

/-- `a` is older than `b`: b − a, modulo 2³², lies from 1 to 2³¹ − 1. -/
def older (a b : BitVec 32) : Bool := decide (1 ≤ (b - a).toNat ∧ (b - a).toNat < 2 ^ 31)

/-- The oldest of the contexts given, by sequence number. -/
def State.oldest (s : State) : List CtxId → Option CtxId
  | [] => none
  | c :: rest =>
    match s.oldest rest with
    | none => some c
    | some d => if older (s.ctx d).seq (s.ctx c).seq then some d else some c

/-- `c` put among contexts in ascending sequence order. -/
def State.insertByAge (s : State) (c : CtxId) : List CtxId → List CtxId
  | [] => [c]
  | d :: rest => if older (s.ctx c).seq (s.ctx d).seq then c :: d :: rest else d :: s.insertByAge c rest

/-- Contexts in ascending sequence order. -/
def State.byAge (s : State) : List CtxId → List CtxId
  | [] => []
  | c :: rest => s.insertByAge c (s.byAge rest)

/-- The contexts that satisfy a test, oldest first. -/
def State.contextsWhere (s : State) (p : Context → Bool) : List CtxId :=
  s.byAge ((List.finRange 16).filter fun c => p (s.ctx c))

/-! ### Host Port: listed reads, reads in flight, posted writes -/

/-- The data mover's reference to a chunk. -/
def ReadRef.isChunk (r : ReadRef) (k : ChunkId) : Bool :=
  match r with
  | .data _ k' _ => k' == k
  | _ => false

/-- The data mover's reference for a context. -/
def ReadRef.isDataOf (r : ReadRef) (c : CtxId) : Bool :=
  match r with
  | .data c' _ _ => c' == c
  | _ => false

/-- A read in flight whose reference satisfies `p` (R116: the data mover's reads in flight are the tags'). -/
def State.readInFlight (s : State) (p : ReadRef → Bool) : Bool :=
  (List.finRange 8).any fun i =>
    match s.port.tags[i] with
    | .inFlight r _ => p r.ref
    | _ => false

/-- A data mover read still listed for chunk `k`. -/
def State.readListed (s : State) (k : ChunkId) : Bool := s.port.moverReads.any fun r => r.ref.isChunk k

/-- Listed data mover reads whose reference satisfies `p` are dropped (R123, R125, R159). -/
def State.dropReads (s : State) (p : ReadRef → Bool) : State :=
  s.modPort fun h => { h with moverReads := h.moverReads.filter fun r => !p r.ref }

def PostedWrite.ofChunk (w : PostedWrite) (k : ChunkId) : Bool :=
  match w with
  | .data _ k' _ _ => k' == k
  | _ => false

def PostedWrite.dataOf (w : PostedWrite) (c : CtxId) : Bool :=
  match w with
  | .data c' _ _ _ => c' == c
  | _ => false

/-- A posted write handed and not yet issued, in the issue queue or held for a place (R161), satisfies `p`. -/
def State.writeOwed (s : State) (p : PostedWrite → Bool) : Bool :=
  s.port.issueQueue.any p || s.port.held.any p

/-- A posted write is handed to the Host Port: it joins the issue queue, or is held while all 64 places are taken or
earlier writes are held (R161). -/
def State.handWrite (s : State) (w : PostedWrite) : State :=
  s.modPort fun h =>
    if h.held.isEmpty && decide (h.issueQueue.length < 64) then { h with issueQueue := h.issueQueue ++ [w] }
    else { h with held := h.held ++ [w] }

/-- The write at the head of the issue queue is issued: it leaves, and the first held write takes the place (R161). -/
def State.popWrite (s : State) : State :=
  s.modPort fun h =>
    match h.held with
    | [] => { h with issueQueue := h.issueQueue.tail }
    | w :: rest => { h with issueQueue := h.issueQueue.tail ++ [w], held := rest }

def State.setTag (s : State) (i : TagId) (t : Tag) : State :=
  s.modPort fun h => { h with tags := h.tags.set i t }

/-! ### Reservations, entries and messages -/

/-- The written count of a completion ring (R130). -/
def QueueRow.written (r : QueueRow) : Nat := (r.cplTail + r.cplSize - r.cplHead) % r.cplSize

/-- Room for a reservation (R139). -/
def QueueRow.hasRoom (r : QueueRow) : Bool := decide (r.written + r.reserved < r.cplSize - 1)

/-- A reservation granted: reserved rises by one; the refused flag records refusals since the last grant (R139, R140). -/
def State.reserve (s : State) (q : QueueId) : State :=
  s.modQueue q fun r => { r with reserved := r.reserved + 1, refused := false }

/-- A reservation refused is remembered (R140). -/
def State.refuse (s : State) (q : QueueId) : State := s.modQueue q fun r => { r with refused := true }

/-- A reservation given back (R140). -/
def State.giveBack (s : State) (q : QueueId) : State :=
  s.modQueue q fun r => { r with reserved := r.reserved - 1 }

/-- The row after an entry has taken the place at the completion tail (R141): the tail advances, the phase flips at the
wrap, reserved falls by one. The reservation is consumed here, as R139 to R141 have it, and not at the entry's issue, where
R3 has it (log 37). -/
def QueueRow.entryPlaced (r : QueueRow) : QueueRow :=
  { r with
    cplTail := (r.cplTail + 1) % r.cplSize
    reserved := r.reserved - 1
    phase := if r.cplTail + 1 = r.cplSize then !r.phase else r.phase }

/-- A completion entry is handed to the Queue Manager (R141): it takes the place at the completion tail with the queue's
phase marker, and its posted write is handed to the Host Port. -/
def State.handEntry (s : State) (q : QueueId) (c : Option CtxId) (irqNow : Bool) (e : Entry) : State :=
  let r := s.queue q
  (s.handWrite (.entry q c irqNow (r.cplBase + BitVec.ofNat 64 (32 * r.cplTail)) r.phase e)).modQueue q
    QueueRow.entryPlaced

/-- The queue's row once its message has been sent (R145). -/
def QueueRow.messageSent (r : QueueRow) : QueueRow :=
  { r with count := 0, delayTimer := none, messageDue := false }

/-- A message owed for a queue (R145): sent when IRQ_ENABLE is set, kept as message due when it is clear. While RESETTING
is set no message is handed. -/
def State.oweMessage (s : State) (q : QueueId) : State :=
  if s.regs.resetting then s
  else if s.regs.irqEnable then (s.handWrite (.message q)).modQueue q QueueRow.messageSent
  else s.modQueue q fun r => { r with messageDue := true, delayTimer := none }

/-- A halt or index-error notice on vector 0 (R146): it does not change queue 0's moderation count. -/
def State.oweNotice (s : State) : State :=
  if s.regs.resetting then s
  else if s.regs.irqEnable then (s.handWrite (.message 0)).modQueue 0 fun r => { r with messageDue := false }
  else s.modQueue 0 fun r => { r with messageDue := true }

/-- Moderation of an entry just issued (R143). -/
def State.moderate (s : State) (q : QueueId) (irqNow : Bool) : State :=
  let s := s.modQueue q fun r => { r with count := min 65535 (r.count + 1) }
  let r := s.queue q
  if irqNow || decide (r.threshold ≤ r.count) then s.oweMessage q
  else if 0 < r.delay ∧ r.delayTimer = none then
    s.modQueue q fun r => { r with delayTimer := some (s.now + r.delay) }
  else s

/-- IRQ_ENABLE takes the value written; on a change from 0 to 1 every queue whose message is due, or whose count has
reached its threshold, sends its message, in queue order (R145). -/
def State.writeIrqEnable (s : State) (on : Bool) : State :=
  let s' := s.modRegs fun r => { r with irqEnable := on }
  if on && !s.regs.irqEnable then
    (List.finRange 9).foldl (fun t q =>
      if (t.queue q).messageDue || decide ((t.queue q).threshold ≤ (t.queue q).count) then t.oweMessage q else t) s'
  else s'

/-! ### Pins -/

/-- The select outputs with target `t`'s asserted. -/
def selectOf (t : TargetId) : BitVec 16 := BitVec.ofNat 16 (2 ^ t.val)

/-- Both strobes inactive, nothing driven. -/
def Pins.quiet (p : Pins) : Pins := { p with trd := false, twr := false, driven := [] }

/-- Every select dropped and both strobes inactive. -/
def Pins.dropped (p : Pins) : Pins := { p.quiet with tsel := 0 }

end Sys2Proof.Machine
end

