-- ==== Sys2Proof/Machine/Staging.lean ====
section
/-! DEFINITION. The Staging Pool and the Lock Table (06_target_locks.md, 07_the_staging_pool_and_host_data_movement.md):
claims, grants, offers and frees of chunks, the data mover's listed reads, and the grant evaluation of lock sets. The two
blocks tell each other of every change, so they stand together. -/

namespace Sys2Proof.Machine

/-! ### What the Lock Table answers (R110) -/

/-- R110, the arbiter's question: may `c`'s access to `t` begin? -/
def State.mayAccess (s : State) (c : CtxId) (t : TargetId) : Bool :=
  match s.locks.rows[t] with
  | none => true
  | some h => h == c

/-- R110, the Staging Pool's question: may `c` claim a chunk for a segment to `t`? -/
def State.mayClaim (s : State) (c : CtxId) (t : TargetId) : Bool :=
  match s.locks.rows[t] with
  | none => s.locks.waiters.all fun w => !maskHas w.set t
  | some h => h == c

/-! ### Chunks -/

/-- The chunks a context holds (R1, R116). -/
def State.chunksOf (s : State) (c : CtxId) : List ChunkId :=
  (List.finRange 24).filter fun k => s.pool.chunks[k].any fun h => h.context == c

/-- The chunk a context holds with a role. -/
def State.chunkWith (s : State) (c : CtxId) (role : Role) : Option ChunkId :=
  (List.finRange 24).find? fun k => s.pool.chunks[k].any fun h => h.context == c && h.role == role

/-- The lowest-numbered free chunk (R118, R121). -/
def State.freeChunk? (s : State) : Option ChunkId :=
  (List.finRange 24).find? fun k => s.pool.chunks[k].isNone

def State.setChunk (s : State) (k : ChunkId) (h : Option ChunkHold) : State :=
  s.modPool fun p => { p with chunks := p.chunks.set k h }

/-- The host reads that fill a chunk with a WRITE segment (R124): the segment's host range cut at page ends, each piece
to the place its host address gives. -/
def segmentReads (c : CtxId) (k : ChunkId) (o : Op) (g : Segment) : List ReadReq :=
  let first := o.data + BitVec.ofNat 64 (g.base + g.place)
  (pageSplit first g.len).map fun p =>
    { ref := .data c k (g.place + (p.1 - first).toNat), addr := p.1, len := p.2 }

/-- The data mover lists the reads of a segment (R124). -/
def State.listReads (s : State) (c : CtxId) (k : ChunkId) (o : Op) (g : Segment) : State :=
  s.modPort fun h => { h with moverReads := h.moverReads ++ segmentReads c k o g }

/-- A segment whose host read has just been listed. -/
def Segment.reading (g : Segment) : Segment := { g with hostRead := .pending, readError := false, reread := false }

/-- Chunk `k` is granted to `c` for segment `g` (R117, R118, R121): it is held with the role and the op's targets, and a
WRITE from a host buffer has its reads listed. The answer is the segment as it then stands. -/
def State.grantChunk (s : State) (c : CtxId) (k : ChunkId) (role : Role) (o : Op) (g : Segment) : State × Segment :=
  let s := s.setChunk k (some { context := c, role, targets := o.targets, length := g.len })
  if o.readsHost then (s.listReads c k o g, g.reading) else (s, g)

/-- A first chunk is granted to `c`, whose preparation goes on at step 7 (R118, R119). The grant keeps the law of R117: no
context is given a third chunk. -/
def State.grantFirst (s : State) (c : CtxId) (k : ChunkId) : State :=
  match (s.ctx c).op, (s.ctx c).segment with
  | some o, some g =>
    if 2 ≤ (s.chunksOf c).length then s
    else
      let (s, g) := s.grantChunk c k .current o g
      s.modCtx c fun x => { x with segment := some g, prep := .run .data }
  | _, _ => s

/-- A first-chunk claim (R118). -/
def State.claimFirst (s : State) (c : CtxId) : State :=
  let targets := (s.ctx c).opTargets
  if 2 ≤ (s.chunksOf c).length then s.setPrep c .waitTwo
  else if !targets.all (s.mayClaim c) then
    (s.modPool fun p => { p with refused := p.refused ++ [{ context := c, targets }] }).setPrep c .waitChunk
  else
    match s.pool.waiters, s.freeChunk? with
    | [], some k => s.grantFirst c k
    | _, _ => (s.modPool fun p => { p with waiters := p.waiters ++ [{ context := c, targets }] }).setPrep c .waitChunk

/-- The Lock Table's notice that an answer may have turned to yes (R120): each member of the lock-refused set whose
answer is yes claims again, in ascending sequence order. A member whose profile copy was discarded while it waited claims
again at once, as R120 has it, and returns to step 2 only when its chunk has been granted, where R118 has it return when its
wait ends (log 38). -/
def State.reclaim (s : State) : State :=
  let ready := s.pool.refused.filter fun m => m.targets.all (s.mayClaim m.context)
  let order := s.byAge (ready.map (·.context))
  order.foldl State.claimFirst
    (s.modPool fun p => { p with refused := p.refused.filter fun m => !m.targets.all (s.mayClaim m.context) })

/-! ### Grants of lock sets -/

/-- A chunk is held by a context other than `c` for a segment to `t` (R107). -/
def State.foreignChunk (s : State) (c : CtxId) (t : TargetId) : Bool :=
  (List.finRange 24).any fun k => s.pool.chunks[k].any fun h => h.context != c && h.targets.contains t

/-- An access to `t` is in progress on behalf of a context other than `c` (R107). -/
def State.foreignAccess (s : State) (c : CtxId) (t : TargetId) : Bool :=
  match s.bus.state with
  | .access a => a.owner != c && a.target == t
  | _ => false

/-- The four conditions of R106 for every target of a member's set, with the members older than it still in the list. -/
def State.lockPasses (s : State) (olderMembers : List LockWaiter) (w : LockWaiter) : Bool :=
  (List.finRange 16).all fun t =>
    !maskHas w.set t ||
      (s.locks.rows[t].isNone && olderMembers.all (fun v => !maskHas v.set t)
        && !s.foreignChunk w.context t && !s.foreignAccess w.context t)

/-- A member is granted its whole set and goes to PREPARING (R106, R7). -/
def State.lockGrant (s : State) (w : LockWaiter) : State :=
  (s.modLocks fun l =>
      { l with rows := Vector.ofFn fun t => if maskHas w.set t then some w.context else l.rows[t] }).modCtx w.context
    fun x => { x with state := .preparing, prep := .run .start }

/-- The visit of a grant evaluation (R105): members from the oldest to the youngest, `kept` those that have failed. -/
def State.lockVisit (s : State) (kept : List LockWaiter) : List LockWaiter → State
  | [] => s.modLocks fun l => { l with waiters := kept }
  | w :: rest =>
    if s.lockPasses kept w then (s.lockGrant w).lockVisit kept rest else s.lockVisit (kept ++ [w]) rest

/-- A grant evaluation (R105); when a member has left the list the Staging Pool is told (R110). None is made while
RESETTING is set (R115). -/
def State.lockEvaluate (s : State) : State :=
  if s.regs.resetting then s
  else
    let t := s.lockVisit [] s.locks.waiters
    if t.locks.waiters.length < s.locks.waiters.length then t.reclaim else t

/-- `w` placed in the waiter list by its age (R104). -/
def insertWaiter (w : LockWaiter) : List LockWaiter → List LockWaiter
  | [] => [w]
  | v :: rest => if older w.seq v.seq then w :: v :: rest else v :: insertWaiter w rest

/-- A context enters LOCK_WAIT: it joins the list and an evaluation is made (R7, R104). -/
def State.lockJoin (s : State) (c : CtxId) : State :=
  let x := s.ctx c
  ((s.modLocks fun l =>
      { l with waiters := insertWaiter { context := c, seq := x.seq, set := x.lockMask } l.waiters }).modCtx c
    fun x => { x with state := .lockWait }).lockEvaluate

/-- A member leaves the list by abort: an evaluation is made and the Staging Pool is told (R109, R110). -/
def State.lockLeave (s : State) (c : CtxId) : State :=
  ((s.modLocks fun l => { l with waiters := l.waiters.filter fun w => w.context != c }).lockEvaluate).reclaim

/-- A holder releases its whole set: an evaluation is made and the Staging Pool is told (R108, R110). -/
def State.lockRelease (s : State) (c : CtxId) : State :=
  ((s.modLocks fun l =>
      { l with rows := Vector.ofFn fun t => if l.rows[t] = some c then none else l.rows[t] }).lockEvaluate).reclaim

/-! ### Freeing and offering -/

/-- A freed chunk is offered to the waiters in request order until one is granted it; a waiter whose answer has become no
goes to the lock-refused set (R119). -/
def State.offer (s : State) (k : ChunkId) : List Claim → State
  | [] => s.modPool fun p => { p with waiters := [] }
  | m :: rest =>
    if m.targets.all (s.mayClaim m.context) then
      (s.modPool fun p => { p with waiters := rest }).grantFirst m.context k
    else (s.modPool fun p => { p with refused := p.refused ++ [m] }).offer k rest

/-- A context that waited for a chunk of its own to be freed goes on: at step 6 (R118; log 33), or with the op that could
not begin before (R8). -/
def State.wake (s : State) (c : CtxId) : State :=
  match (s.ctx c).prep with
  | .waitTwo => s.setPrep c (.run .claim)
  | .waitFreed => if (s.chunksOf c).isEmpty then s.setPrep c (.run .start) else s
  | _ => s

/-- A chunk is freed: the Lock Table is told and evaluates (R105, R107), and the chunk is offered (R119, R122). -/
def State.freeChunk (s : State) (k : ChunkId) : State :=
  match s.pool.chunks[k] with
  | none => s
  | some h =>
    let s := ((s.setChunk k none).wake h.context).lockEvaluate
    if s.pool.chunks[k].isNone then s.offer k s.pool.waiters else s

/-- A chunk whose segment has ended is freed once no host read of it is in flight and no data write of it is owed (R122). So,
too, where the op ends by a remainder's access with 0 beats done, or fails at the remainder's preparation, while the write of
an earlier access from the same chunk is not yet issued: the chunk is held until that write is issued (log 39). -/
def State.freeIfDone (s : State) (k : ChunkId) : State :=
  match s.pool.chunks[k] with
  | none => s
  | some h =>
    if h.role = .ended ∧ !s.readInFlight (·.isChunk k) ∧ !s.writeOwed (·.ofChunk k) then s.freeChunk k else s

/-- The segment a chunk is held for has ended or was discarded: its listed reads are dropped, and it is freed at the
moment R122 gives. -/
def State.endChunk (s : State) (k : ChunkId) : State :=
  match s.pool.chunks[k] with
  | none => s
  | some h => ((s.dropReads (·.isChunk k)).setChunk k (some { h with role := .ended })).freeIfDone k

/-- The chunk a context holds with a role, ended. -/
def State.endRole (s : State) (c : CtxId) (role : Role) : State :=
  match s.chunkWith c role with
  | none => s
  | some k => s.endChunk k

/-- The staged segment is discarded (R14): any error of its read is forgotten with it. -/
def State.discardStaged (s : State) (c : CtxId) : State :=
  (s.modCtx c fun x => { x with staged := none }).endRole c .staged

/-- A context leaves the chunk waiter list and the lock-refused set (R123). -/
def State.leavePool (s : State) (c : CtxId) : State :=
  s.modPool fun p =>
    { p with
      waiters := p.waiters.filter fun m => m.context != c
      refused := p.refused.filter fun m => m.context != c }

/-! ### Staging the next segment (R14, R121) -/

/-- The segment to stage behind the current one: cut with the profiles the current segment was cut with. -/
def nextSegment (x : Context) (o : Op) (g : Segment) : Segment :=
  let start := g.base + g.place + g.len
  let p1 := (x.profileOf .source).bus
  { half := .source, target := o.target, addr := o.addrAt .source p1 start, base := start,
    len := segmentLength o .source p1 (x.profileOf .destination).bus start o.length }

/-- The second-chunk claim made at the grant of an access (R121): granted or refused at once, and never waited for. -/
def State.claimSecond (s : State) (c : CtxId) : State :=
  let x := s.ctx c
  match x.op, x.segment with
  | some o, some g =>
    if o.usesChunk && (!o.isCopy || g.half == .destination) && decide (g.base + g.place + g.len < o.length)
        && (s.chunksOf c).length == 1 && s.pool.waiters.isEmpty && o.targets.all (s.mayClaim c) then
      match s.freeChunk? with
      | some k =>
        let (s, n) := s.grantChunk c k .staged o (nextSegment x o g)
        s.modCtx c fun x => { x with staged := some n }
      | none => s
    else s
  | _, _ => s

end Sys2Proof.Machine
end

