-- ==== Sys2Proof/Machine/Engine.lean ====
section
/-! DEFINITION. The Transaction Engine (01_transaction_execution.md): completing, the end of an op and the next op, the
profile lookup, the steps of a preparation, and the settling of every preparation that can go on. -/

namespace Sys2Proof.Machine

/-! ### Completing (R19 to R21) -/

/-- The entry a context assembles from its own fields (R19), with the status and first error of R20. -/
def Context.assemble (x : Context) (status : Status) (first : Option Status) : Entry where
  tag := x.tag
  queue := x.queue.getD 0
  status := status
  first := first
  failing := x.failing
  opsCompleted := x.opsCompleted
  opsFailed := x.opsFailed
  bytes := x.bytes
  totalRetries := x.totalRetries
  ret := x.returnData
  cookie := x.cookie

/-- A context that enters COMPLETING: its entry is assembled, its timer is idle, and no op is current. -/
def Context.completed (x : Context) (status : Status) (first : Option Status) : Context :=
  { x with
    state := .completing, prep := .none, timer := none, opIndex := none, segment := none, staged := none
    entry := some (x.assemble status first), handed := false }

/-- A context goes to COMPLETING (R19, R21): reads of it not yet issued are dropped, claims of it withdrawn. -/
def State.complete (s : State) (c : CtxId) (status : Status) (first : Option Status) : State :=
  ((s.dropReads (·.isDataOf c)).leavePool c).modCtx c fun x => x.completed status first

/-- A context completes ABORTED; the first-error byte carries the code kept, if any (R20, R22). -/
def State.completeAborted (s : State) (c : CtxId) : State := s.complete c .aborted (s.ctx c).firstError

/-! ### Ops (R8, R18) -/

/-- The fields that R8 sets when op `k` becomes current. -/
def Context.withOp (x : Context) (k : Nat) : Context :=
  { x with
    opIndex := some k, offset := 0, retries := 0, releases := 0, polls := 0, begun := false
    targetReset := false, recheck := false, checking := false, timer := none, segment := none, staged := none
    prof1 := none, prof2 := none, gathered := 0 }

/-- The next op becomes current and its preparation begins, once every chunk held for the last op is freed (R8; log 15);
after the last op the context completes OK or PARTIAL (R18, R20). -/
def State.nextOp (s : State) (c : CtxId) : State :=
  let x := s.ctx c
  let k := x.opIndex.getD 0 + 1
  if k ≤ x.ops.length then
    s.modCtx c fun x =>
      { x.withOp k with
        state := .preparing, prep := if (s.chunksOf c).isEmpty then .run .start else .waitFreed }
  else if x.opsFailed = 0 then s.complete c .ok none
  else s.complete c .partialFail x.firstError

/-- The bytes an op moved (R18). -/
def Context.movedBytes (x : Context) : Nat :=
  match x.op with
  | some o => if o.kind = .poll then (if 0 < x.polls then o.length else 0) else x.offset
  | none => 0

/-- The counts, codes and bytes field at the end of an op (R18). -/
def Context.opEnded (x : Context) (failure : Option Status) (badProfile : Bool) : Context :=
  let x := { x with bytes := if badProfile then badProfileDetail else BitVec.ofNat 32 x.movedBytes }
  match failure with
  | none => { x with opsCompleted := x.opsCompleted + 1 }
  | some code =>
    { x with
      opsFailed := x.opsFailed + 1
      firstError := some (x.firstError.getD code)
      failing := if x.firstError.isNone then x.opIndex else x.failing }

/-- An op ends in success or failure (R18): its chunks are ended, its counts made, and the context goes on under its
policy, or completes ABORTED if an abort is pending (R23). -/
def State.endOp (s : State) (c : CtxId) (failure : Option Status) (badProfile : Bool := false) : State :=
  let s := ((s.modCtx c fun x => x.opEnded failure badProfile).discardStaged c).endRole c .current
  let x := s.ctx c
  if x.abortPending then s.completeAborted c
  else
    match failure with
    | some code => if x.continues then s.nextOp c else s.complete c code (some code)
    | none => s.nextOp c

/-- The current op fails (R11, R13). -/
def State.failOp (s : State) (c : CtxId) (code : Status) : State := s.endOp c (some code)

/-! ### Profile lookup (R91, R92) -/

/-- The entry that holds a target. -/
def State.cached (s : State) (t : TargetId) : Option EntryId :=
  (List.finRange 4).find? fun e => s.cache.entries[e].any fun f => f.target == t

/-- An entry becomes the most recently used (R90). -/
def State.touch (s : State) (e : EntryId) : State :=
  s.modCache fun k => { k with recency := e :: k.recency.filter fun f => f != e }

/-- The profile loader lists a 32-byte read of a target's profile at the sampled base plus 32 × t (R88). -/
def State.listLoad (s : State) (t : TargetId) : State :=
  s.modPort fun h =>
    { h with loaderReads := h.loaderReads
        ++ [{ ref := .profile t, addr := s.regs.profileTable + BitVec.ofNat 64 (32 * t.val), len := 32 }] }

def State.modRow (s : State) (t : TargetId) (f : FetchRow → FetchRow) : State :=
  s.modCache fun k => { k with rows := k.rows.set t (f k.rows[t]) }

/-- A context waits in a target's fetch row: a row in NONE goes to LOADING and its read is listed (R92). -/
def State.joinRow (s : State) (c : CtxId) (t : TargetId) : State :=
  if s.cache.rows[t].loading then s.modRow t fun r => { r with waiters := r.waiters ++ [c] }
  else (s.modRow t fun _ => { loading := true, cancelled := false, waiters := [c] }).listLoad t

/-- A context takes its copy of its target's profile, or of a COPY's second target's (R91, R93). -/
def Context.withProfile (x : Context) (second : Bool) (p : Profile) : Context :=
  if second then { x with prof2 := some p } else { x with prof1 := some p }

/-- The profile copy taken last. -/
def Context.copyOf (x : Context) (second : Bool) : Option Profile := if second then x.prof2 else x.prof1

/-- A lookup of `t` (R91): a hit takes a copy, to be judged; a miss waits for the load. -/
def State.lookup (s : State) (c : CtxId) (t : TargetId) (second : Bool) : State :=
  match s.cached t with
  | some e =>
    match s.cache.entries[e] with
    | some f => (s.touch e).modCtx c fun x => { x.withProfile second f.profile with prep := .run (.judge second) }
    | none => s
  | none => (s.joinRow c t).setPrep c (.waitProfile second)

/-! ### Steps of a preparation (R10) -/

/-- The targets a preparation checks in the Target State Table: both for a COPY's source half (R10 step 3, R81). -/
def Context.checkedTargets (x : Context) (o : Op) : List TargetId :=
  match x.half with
  | .source => o.targets
  | .destination => [o.target2]

def State.quarantined (s : State) (t : TargetId) : Bool := s.targets[t].isSome

/-- The copies a half needs: its own target's, and for a COPY's source half both (R91). -/
def Context.hasCopies (x : Context) (o : Op) : Bool :=
  match x.half with
  | .source => x.prof1.isSome && (!o.isCopy || x.prof2.isSome)
  | .destination => x.prof2.isSome

/-- A target-reset mark fails the op, after any host read in flight for it has returned (R24; log 16). -/
def State.resetFails (s : State) (c : CtxId) : State :=
  let s := s.dropReads (·.isDataOf c)
  if s.readInFlight (·.isDataOf c) then s.setPrep c .waitReads else s.failOp c .targetReset

/-- The segment is tested once more and the context goes to BUS_READY (R10, R24, R81); a copy discarded meanwhile sends
the preparation back to step 2 (R98), before this last test (the model's choice, log 35). -/
def State.prepReady (s : State) (c : CtxId) : State :=
  let x := s.ctx c
  match x.op with
  | none => s
  | some o =>
    if !x.hasCopies o then s.setPrep c (.run .lookup)
    else if x.targetReset then s.resetFails c
    else if (x.checkedTargets o).any s.quarantined then s.failOp c .targetQuarantined
    else s.modCtx c fun x => { x with state := .busReady, prep := .none }

/-- Step 7: a WRITE from a host buffer waits for its bytes (R10, R125); a copy discarded meanwhile sends the preparation back
to step 2 (R98; log 35). -/
def State.prepData (s : State) (c : CtxId) : State :=
  let x := s.ctx c
  match x.op, x.segment with
  | some o, some g =>
    if !o.readsHost then s.prepReady c
    else if g.hostRead = .failed then s.failOp c .hostReadError
    else if !x.hasCopies o then s.setPrep c (.run .lookup)
    else if g.hostRead = .arrived then s.prepReady c
    else s.setPrep c .waitData
  | _, _ => s

/-- The segment as step 5 cuts it (R9). A segment prepared again is cut anew from where it begins (R12); a remainder
(R77), however few bytes have moved, and a COPY's destination half (R15) never pass their old end (log 13). -/
def Context.cut (x : Context) (o : Op) : Segment :=
  let g := x.segment.getD { base := x.offset }
  let p1 := (x.profileOf .source).bus
  let p2 := (x.profileOf .destination).bus
  let start := g.base + g.place
  let limit := if g.remainder || g.half == .destination then start + g.len else o.length
  { g with
    target := o.targetOf g.half
    addr := o.addrAt g.half (x.profileOf g.half).bus start
    len := segmentLength o g.half p1 p2 start limit }

/-- The host read of a segment has met an error: it has failed, or fails when its reads in flight have returned (R125). -/
def Segment.readLost (g : Segment) : Bool := g.hostRead == .failed || g.readError

/-- A WRITE segment cut longer than before discards its chunk's data and reads them again, once its reads in flight have
returned (R12, R124). -/
def State.readAgain (s : State) (c : CtxId) (k : ChunkId) (o : Op) (g : Segment) : State × Segment :=
  let s := s.dropReads (·.isChunk k)
  if s.readInFlight (·.isChunk k) then (s, { g with hostRead := .pending, readError := false, reread := true })
  else (s.listReads c k o g, g.reading)

/-- Steps 5 and 6: the segment is cut; a chunk already held takes its length and targets (R117), else one is claimed. A
host read that has met an error is not made again: the op fails at step 7 (R14, R125). A shorter cut keeps the reads of
the old one (log 14). -/
def State.prepCut (s : State) (c : CtxId) : State :=
  let x := s.ctx c
  match x.op with
  | none => s
  | some o =>
    let g := x.cut o
    let longer := x.segment.any fun old => decide (old.len < g.len)
    if !o.usesChunk then (s.modCtx c fun x => { x with segment := some g }).prepReady c
    else
      match s.chunkWith c .current with
      | none => (s.modCtx c fun x => { x with segment := some g }).claimFirst c
      | some k =>
        let s := s.setChunk k (some { context := c, role := .current, targets := o.targets, length := g.len })
        let (s, g) := if o.readsHost && longer && !g.readLost then s.readAgain c k o g else (s, g)
        (s.modCtx c fun x => { x with segment := some g }).prepData c

/-- The op-level checks a preparation makes (R29 at the op's first segment, R31 when marked): a source half's when the mark
was set as its lookups began, a destination half's while it is set (log 28). -/
def Context.checkFailure (x : Context) (o : Op) : Option Status :=
  let p1 := x.profileOf .source
  let p2 := x.profileOf .destination
  match x.half with
  | .source =>
    if (!x.begun && x.offset == 0) || x.checking then opChecks o x.lockMask p1 p2 x.offset else none
  | .destination => if x.recheck then destinationChecks o p2 x.offset else none

/-- Steps 3 and 4: target states and op-level checks (R10, R29 to R31, R81). A COPY's source half takes them after both
lookups, so a quarantine set while it waited for its second profile is found here (log 36). -/
def State.prepChecks (s : State) (c : CtxId) : State :=
  let x := s.ctx c
  match x.op with
  | none => s
  | some o =>
    if (x.checkedTargets o).any s.quarantined then s.failOp c .targetQuarantined
    else
      match x.checkFailure o with
      | some code => s.failOp c code
      | none =>
        (s.modCtx c fun x => { x with checking := false }).prepCut c

/-- A copy just taken is judged (R87): one that is not good fails the op, and a good one goes on, to the second lookup of
a COPY's source half, which belongs to step 2 (R10, R30; log 36), or to step 3. -/
def State.prepJudge (s : State) (c : CtxId) (second : Bool) : State :=
  let x := s.ctx c
  match x.op, x.copyOf second with
  | some o, some p =>
    match judgeProfile p with
    | .notValid => s.failOp c .targetAbsent
    | .bad => s.endOp c (some .targetAbsent) true
    | .good =>
      if !second && o.isCopy then s.lookup c o.target2 true
      else if !x.hasCopies o then s.setPrep c (.run .lookup)
      else s.prepChecks c
  | _, _ => s.setPrep c (.run .lookup)

/-- A source half's lookups begin: no copy is held, and the recheck mark becomes the preparation's own (R31). -/
def Context.lookingUp (x : Context) : Context :=
  { x with prof1 := none, prof2 := none, checking := x.checking || x.recheck, recheck := false }

/-- Step 2: the first lookup (R91). A destination half looks up the second target alone and keeps the first's copy. -/
def State.prepLookup (s : State) (c : CtxId) : State :=
  let x := s.ctx c
  match x.op with
  | none => s
  | some o =>
    match x.half with
    | .source => (s.modCtx c Context.lookingUp).lookup c o.target false
    | .destination => (s.modCtx c fun x => { x with prof2 := none }).lookup c o.target2 true

/-- Step 1: a target-reset mark fails the op (R24). -/
def State.prepStart (s : State) (c : CtxId) : State :=
  if (s.ctx c).targetReset then s.resetFails c else s.prepLookup c

/-- Step 6 taken up again by a context that waited with two chunks held: it claims, or returns to step 2 if its copy was
discarded meanwhile (R98, R118; log 33). -/
def State.prepClaim (s : State) (c : CtxId) : State :=
  match (s.ctx c).op with
  | none => s
  | some o => if (s.ctx c).hasCopies o then s.claimFirst c else s.setPrep c (.run .lookup)

/-- One stretch of a context's preparation, from the point it has reached to its next wait or to its end. -/
def State.prepare (s : State) (c : CtxId) : State :=
  match (s.ctx c).prep with
  | .run .start => s.prepStart c
  | .run .lookup => s.prepLookup c
  | .run (.judge second) => s.prepJudge c second
  | .run .claim => s.prepClaim c
  | .run .data => s.prepData c
  | _ => s

/-! ### Settling -/

/-- The context is PREPARING and has steps to take. -/
def Context.runnable (x : Context) : Bool :=
  x.state == .preparing &&
    match x.prep with
    | .run _ => true
    | _ => false

/-- The oldest context with steps to take. -/
def State.nextRunnable (s : State) : Option CtxId :=
  s.oldest ((List.finRange 16).filter fun c => (s.ctx c).runnable)

/-- Preparations go on, the oldest context first (log 5), until none can or `fuel` stretches have run. -/
def State.settleFor : Nat → State → State
  | 0, s => s
  | fuel + 1, s =>
    match s.nextRunnable with
    | none => s
    | some c => (s.prepare c).settleFor fuel

/-- Every preparation that can go on does (R10). None is started while RESETTING is set (R25). The bound of 4096 stretches
is above what the sixteen contexts and their fifteen ops can use (log 6). -/
def State.settle (s : State) : State := if s.regs.resetting then s else s.settleFor 4096

/-! ### Abort (R22, R23) -/

/-- A PREPARING context that was waiting for its reads, or whose profile load has returned, completes ABORTED unless reads
of it are still in flight (R23); so for one that waits on a chunk claim, too (log 32). -/
def State.finishAbort (s : State) (c : CtxId) : State :=
  if s.readInFlight (·.isDataOf c) then s.setPrep c .waitReads else s.completeAborted c

/-- Abort-pending is set on a context, with the result its state gives (R22, R23); its reads not yet issued are dropped at
once (R123, R159). -/
def State.abort (s : State) (c : CtxId) : State :=
  let marked := s.modCtx c fun x => { x with abortPending := true }
  match (s.ctx c).state with
  | .free => s
  | .loading | .completing => marked
  | .onBus => marked.dropReads (·.isDataOf c)
  | .fenceWait | .busReady | .timerWait => marked.completeAborted c
  | .lockWait => (marked.completeAborted c).lockLeave c
  | .preparing =>
    match (s.ctx c).prep with
    | .waitProfile _ => marked.dropReads (·.isDataOf c)
    | _ => ((marked.leavePool c).dropReads (·.isDataOf c)).finishAbort c

end Sys2Proof.Machine
end

