-- ==== Sys2Proof/Machine/Cache.lean ====
section
/-! DEFINITION. The Profile Cache's fills, evictions and invalidations, the end of a profile load
(05_target_profiles_and_the_profile_cache.md), and quarantine (04_target_responses_and_quarantine.md). -/

namespace Sys2Proof.Machine

/-- Every context replaced by a function of itself. -/
def State.mapContexts (s : State) (f : Context → Context) : State :=
  { s with contexts := Vector.ofFn fun c => f s.contexts[c] }

/-- The window closes and the open target's select drops (R57). -/
def State.closeWindow (s : State) : State :=
  s.modBus fun b => { b with window := none, pins := b.pins.dropped }

/-- What the Bus Controller does with an invalidation of `t` (R58). -/
def State.windowInvalidate (s : State) (t : TargetId) : State :=
  let open_ := s.bus.window.any fun w => w.target == t
  match s.bus.state with
  | .access a =>
    if a.target = t then s.modBus fun b => { b with closePending := true }
    else if open_ then s.closeWindow else s
  | _ => if open_ then s.closeWindow else s

/-- A context sent back from BUS_READY to PREPARING, with its chunk and host data kept (R12). -/
def Context.sentBack (x : Context) : Context := { x with state := .preparing, prep := .run .start }

/-- What an invalidation of `t` does to a context (R98): a BUS_READY one whose segment's cut rests on `t` goes back, a
PREPARING one discards its copy, and any whose current op names `t` repeats its checks (R31). -/
def Context.invalidated (t : TargetId) (x : Context) : Context :=
  let x := if x.names t then { x with recheck := true } else x
  match x.op with
  | none => x
  | some o =>
    if !(x.checkedTargets o).contains t then x
    else
      match x.state with
      | .busReady => x.sentBack
      | .preparing =>
        { x with
          prof1 := if x.half == .source && o.target == t then none else x.prof1
          prof2 := if o.isCopy && o.target2 == t then none else x.prof2 }
      | _ => x

/-- The entry that holds `t` is emptied and leaves the recency order. -/
def State.emptyEntry (s : State) (t : TargetId) : State :=
  let holds (f : Option CacheEntry) := f.any fun x => x.target == t
  s.modCache fun k =>
    { k with
      entries := k.entries.map fun f => if holds f then none else f
      recency := k.recency.filter fun e => !holds k.entries[e] }

/-- An invalidation of `t` (R98). -/
def State.invalidate (s : State) (t : TargetId) : State :=
  let s := (s.emptyEntry t).modRow t fun r => { r with cancelled := r.cancelled || r.loading }
  (s.windowInvalidate t).mapContexts (Context.invalidated t)

/-- An invalidation of all sixteen targets (R99). -/
def State.invalidateAll (s : State) : State := (List.finRange 16).foldl State.invalidate s

/-! ### The end of a load -/

/-- An eviction tells the Transaction Engine the evicted target (R94). -/
def Context.evicted (t : TargetId) (x : Context) : Context :=
  if x.names t then { x with recheck := true } else x

/-- The entry a fill takes: the lowest-numbered empty one, else the least recently used (R94). -/
def State.fillPlace (s : State) : EntryId :=
  match (List.finRange 4).find? fun e => s.cache.entries[e].isNone with
  | some e => e
  | none => s.cache.recency.getLast?.getD 0

/-- A fill of `t`'s profile, which becomes the most recently used (R90, R93, R94). -/
def State.fill (s : State) (t : TargetId) (p : Profile) : State :=
  let e := s.fillPlace
  let s := match s.cache.entries[e] with
    | some old => s.mapContexts (Context.evicted old.target)
    | none => s
  (s.modCache fun k => { k with entries := k.entries.set e (some { target := t, profile := p }) }).touch e

/-- A waiter takes its copy of the returned profile and its preparation goes on as after a hit (R93). -/
def Context.served (p : Profile) (x : Context) : Context :=
  match x.prep with
  | .waitProfile second => { x.withProfile second p with prep := .run (.judge second) }
  | _ => x

/-- The read of `t`'s profile has returned with its bytes or a host error (R93, R95 to R97). -/
def State.profileReturned (s : State) (t : TargetId) (r : Response) : State :=
  let row := s.cache.rows[t]
  let waiters := s.byAge row.waiters
  let live := waiters.filter fun c => !(s.ctx c).abortPending
  let aborted := waiters.filter fun c => (s.ctx c).abortPending
  let s :=
    if row.cancelled then
      if live.isEmpty then s.modRow t fun _ => {}
      else (s.modRow t fun _ => { loading := true, cancelled := false, waiters := live }).listLoad t
    else
      let s := s.modRow t fun _ => {}
      match r with
      | .data bytes =>
        let p := parseProfile bytes
        live.foldl (fun s c => s.modCtx c (Context.served p)) (s.fill t p)
      | .hostError => live.foldl (fun s c => s.failOp c .profileReadError) s
  (aborted.foldl State.finishAbort s).settle

/-! ### Quarantine -/

/-- A target is set QUARANTINED with the tag and queue of the access's owner, and every BUS_READY context whose segment or
half goes to it returns to PREPARING (R80). -/
def State.quarantine (s : State) (t : TargetId) (tag : BitVec 16) (q : QueueId) : State :=
  ({ s with targets := s.targets.set t (some (tag, q)) } : State).mapContexts fun x =>
    if x.state == .busReady && x.segment.any (fun g => g.target == t) then x.sentBack else x

end Sys2Proof.Machine
end

