-- ==== Sys2Proof/Machine/Bus.lean ====
section
/-! DEFINITION. The Bus Controller (03_the_target_bus.md): the grant arbiter, the phases and beats of an access, its end,
what the owner does with the end (01, 04), and the reset pulse. -/

namespace Sys2Proof.Machine

/-! ### The arbiter (R59 to R62) -/

/-- A candidate is eligible (R59): its target is free or its own in the Lock Table, and not QUARANTINED. -/
def State.eligible (s : State) (c : CtxId) : Bool :=
  (s.ctx c).state == .busReady &&
    (s.ctx c).segment.any fun g => s.mayAccess c g.target && !s.quarantined g.target

/-- An access to `t` from `start` under `p` would be a window hit as the window stands (R47). -/
def State.windowHit (s : State) (t : TargetId) (p : BusProfile) (start : TargetAddr) : Bool :=
  p.holdsWindow && s.bus.window.any fun w => w.target == t && w.base == windowBase p start

/-- The candidate's access would be a window hit (R60). -/
def State.wouldHit (s : State) (c : CtxId) : Bool :=
  let x := s.ctx c
  x.segment.any fun g => s.windowHit g.target (x.profileOf g.half).bus g.addr

/-- The oldest eligible candidate of queue `q` (R61). -/
def State.oldestOf (s : State) (q : Nat) : Option CtxId :=
  s.oldest ((List.finRange 16).filter fun c => s.eligible c && (s.ctx c).queue.any fun k => k.val == q)

/-- The locality step (R60). -/
def State.localityPick (s : State) : Option CtxId :=
  if s.bus.localityRun < 8 then s.oldest ((List.finRange 16).filter fun c => s.eligible c && s.wouldHit c) else none

/-- The queues in the order the round-robin step searches them (R61): from the one after `l` to 8, then from 1 to `l`. -/
def rotation (l : Nat) : List Nat := (List.range 8).map fun i => (l + i) % 8 + 1

/-- The weight of queue `q`. -/
def State.weightOf (s : State) (q : Nat) : Nat := (s.queue (Fin.ofNat 9 q)).weight

/-- The round-robin step (R61): the candidate granted, the last granted queue and the queue run count after it. -/
def State.roundRobinPick (s : State) : Option (CtxId × Nat × Nat) :=
  let l := s.bus.lastQueue
  let again := if l ≠ 0 ∧ s.bus.queueRun < s.weightOf l then s.oldestOf l else none
  match again with
  | some c => some (c, l, s.bus.queueRun + 1)
  | none => (rotation l).findSome? fun q => (s.oldestOf q).map fun c => (c, q, 1)

/-- The grant (R59 to R61): the context granted and the arbiter's counts after it (last granted queue, queue run count,
locality run count), or none when no candidate is eligible. -/
def State.arbiterPick (s : State) : Option (CtxId × Nat × Nat × Nat) :=
  match s.localityPick with
  | some c => some (c, s.bus.lastQueue, s.bus.queueRun, s.bus.localityRun + 1)
  | none => s.roundRobinPick.map fun p => (p.1, p.2.1, p.2.2, 0)

/-! ### Phases and beats -/

/-- The access record kept in the bus state. -/
def State.setAccess (s : State) (a : Access) : State := s.modBus fun b => { b with state := .access a }

/-- Byte `i` of what a write access writes (R34, R37, R45): the fill pattern in the op's phase, the inline bytes, or the
chunk; past the segment's end a free byte (log 9). -/
def State.writeByte (s : State) (c : CtxId) (o : Op) (g : Segment) (i : Nat) : Byte :=
  let n := g.base + g.place + i
  if g.len ≤ i then Config.strayByte s.clock i
  else if o.kind = .fill then fieldByte o.data (n % 8)
  else if o.kind = .write ∧ o.inline then fieldByte o.data n
  else
    match s.chunkWith c .current with
    | some k => s.pool.memory.read (chunkAddr k (g.place + i))
    | none => 0

/-- The pins during the strobe of the beat after those done (R50). -/
def State.beatPins (s : State) (a : Access) : Pins :=
  let p := s.bus.pins
  match (s.ctx a.owner).op, (s.ctx a.owner).segment with
  | some o, some g =>
    let at_ := beatAddr a.snapshot a.start a.beatsDone
    let lanes := beatLanes o a.snapshot at_
    { p with
      tsel := selectOf a.target
      ta := at_
      tbe := laneMask (lanes.map (·.1))
      trd := a.direction == .read
      twr := a.direction == .write
      driven :=
        if a.direction = .write then
          lanes.map fun x => (x.1, s.writeByte a.owner o g (a.beatsDone * a.snapshot.width + x.2))
        else [] }
  | _, _ => p

/-- The strobe of the next beat begins. -/
def State.startBeat (s : State) (a : Access) : State :=
  let a := { a with phase := .beats, holdTimer := none }
  (s.setAccess a).modBus fun b => { b with pins := s.beatPins a }

/-- An open phase begins (R48): the window closes with its close-pending flag, the target's select is asserted and the
window base presented. -/
def State.startOpenPhase (s : State) (a : Access) : State :=
  (s.setAccess { a with phase := .openPhase, holdTimer := none }).modBus fun b =>
    { b with
      window := none
      closePending := false
      pins := { b.pins.quiet with tsel := selectOf a.target, ta := windowBase a.snapshot a.start } }

/-- The access's first phase begins (R47): its beats on a window hit, else its open phase. -/
def State.startFirstPhase (s : State) (a : Access) : State :=
  if s.windowHit a.target a.snapshot a.start then s.startBeat a else s.startOpenPhase a

/-- A turn-off wait ends and the first phase begins. An invalidation of the target in the wait is one in a part of this
access, so the window is closed at its end (R58, R55, R101): close-pending set in the wait outlives the clearing of R48
(log 8). -/
def State.turnOffWaitOver (s : State) (a : Access) : State :=
  (s.startFirstPhase a).modBus fun b => { b with closePending := s.bus.closePending }

/-- The bytes of a read beat go to their destination (R45, R50): the context for a READ with RETURN and a POLL, the chunk
for the rest. Bytes past the segment's end are discarded (log 9). -/
def State.storeBeat (s : State) (a : Access) (lines : BitVec 32) : State :=
  match (s.ctx a.owner).op, (s.ctx a.owner).segment with
  | some o, some g =>
    let bytes := beatBytes o a.snapshot (beatAddr a.snapshot a.start a.beatsDone) lines
    let i := a.beatsDone * a.snapshot.width
    if o.kind = .poll then
      s.modCtx a.owner fun x =>
        { x with gathered := bytes.zipIdx.foldl (fun v p => setFieldByte v p.2 p.1) 0 }
    else
      let bytes := bytes.take (g.len - i)
      if o.ret then
        s.modCtx a.owner fun x =>
          { x with gathered := bytes.zipIdx.foldl (fun v p => setFieldByte v (g.base + g.place + i + p.2) p.1) x.gathered }
      else
        match s.chunkWith a.owner .current with
        | some k => s.modPool fun p => { p with memory := p.memory.writeBytes (chunkAddr k (g.place + i)) bytes }
        | none => s
  | _, _ => s

/-! ### What the owner does with the end of its access (R13 to R16, R68 to R78) -/

/-- How an access ends (R45, R49). -/
inductive AccessEnd where
  | allDone | retry | fault | release | flowStop | holdTimeout
  deriving DecidableEq, Repr

/-- The delay of a retry timer (R71): the base delay doubled with each rise, at most 64 times. -/
def retryDelay (base n : Nat) : Nat := base * 2 ^ min (n - 1) 6

/-- A count of retries: the op's and the transaction's each rise by one (R68). -/
def Context.retried (x : Context) : Context :=
  { x with retries := x.retries + 1, totalRetries := min 65535 (x.totalRetries + 1) }

/-- The context waits on a timer (R17). -/
def Context.waiting (x : Context) (k : TimerKind) (due : Nat) : Context :=
  { x with state := .timerWait, prep := .none, timer := some (k, due) }

/-- An owner whose op goes on prepares again, or completes ABORTED if an abort is pending (R23). -/
def State.ownerPrepares (s : State) (c : CtxId) : State :=
  if (s.ctx c).abortPending then s.completeAborted c else s.modCtx c Context.sentBack

/-- An owner whose op goes on waits on a timer, or completes ABORTED if an abort is pending (R23, R69). -/
def State.ownerWaits (s : State) (c : CtxId) (k : TimerKind) (due : Nat) : State :=
  if (s.ctx c).abortPending then s.completeAborted c else s.modCtx c fun x => x.waiting k due

/-- The posted writes of the bytes an access of a READ or DRAIN moved (R126). -/
def State.handData (s : State) (c : CtxId) (o : Op) (g : Segment) (moved : Nat) : State :=
  match s.chunkWith c .current with
  | none => s
  | some k =>
    if moved = 0 then s
    else
      let first := o.data + BitVec.ofNat 64 (g.base + g.place)
      (pageSplit first moved).foldl
        (fun s p =>
          s.handWrite (.data c k p.1 (s.pool.memory.readBytes (chunkAddr k (g.place + (p.1 - first).toNat)) p.2))) s

/-- A chunk held takes a role. -/
def State.setRole (s : State) (k : ChunkId) (role : Role) : State :=
  s.modPool fun p => { p with chunks := p.chunks.set k (p.chunks[k].map fun h : ChunkHold => { h with role }) }

/-- The op goes on with its next segment: the staged one becomes current (R14), or a new one is cut at the byte offset (R9).
A staged segment that does not begin there, behind a segment that moved fewer bytes than its length, is discarded
(log 9). -/
def State.nextSegmentBegins (s : State) (c : CtxId) : State :=
  let x := s.ctx c
  let kept := x.staged.filter fun n => n.base == x.offset
  let s :=
    if kept.isNone then s.discardStaged c
    else
      match s.chunkWith c .staged with
      | some k => s.setRole k .current
      | none => s
  s.modCtx c fun x => { x.sentBack with segment := kept, staged := none }

/-- A segment that has ended well, its bytes counted (R13): the op ends, or goes on with its next segment. -/
def State.segmentEnds (s : State) (c : CtxId) : State :=
  let s := s.endRole c .current
  let x := s.ctx c
  match x.op with
  | none => s
  | some o =>
    if o.length ≤ x.offset then
      (s.modCtx c fun x => if o.kind = .read ∧ o.ret then { x with returnData := some x.gathered } else x).endOp c none
    else if x.abortPending then s.completeAborted c
    else s.nextSegmentBegins c

/-- A counted POLL attempt (R16, R38, R39). -/
def State.attemptEnds (s : State) (c : CtxId) (o : Op) : State :=
  let s := s.modCtx c fun x =>
    { x with polls := x.polls + 1, segment := none, returnData := if o.ret then some x.gathered else x.returnData }
  let x := s.ctx c
  if pollMatches o (x.gathered.setWidth 32) then s.endOp c none
  else if o.attemptLimit ≤ x.polls then s.failOp c .pollTimeout
  else if o.interval = 0 then s.ownerPrepares c
  else s.ownerWaits c .poll (s.now + o.interval)

/-- All beats done (R13, R15, R16). -/
def State.ownerDone (s : State) (c : CtxId) (o : Op) (g : Segment) (moved : Nat) : State :=
  if o.kind = .poll then s.attemptEnds c o
  else if o.isCopy ∧ g.half = .source then
    (s.modCtx c fun x =>
      { x with
        segment := some { g with half := .destination, place := 0, len := g.place + moved, remainder := false } }).ownerPrepares c
  else
    let s := s.modCtx c fun x => { x with offset := x.offset + moved }
    (if o.writesHost then s.handData c o g moved else s).segmentEnds c

/-- The bytes of an access that ended short of its segment (R76, R78): counted but for a POLL and a COPY's source half,
and written to host for a READ to a host buffer and a DRAIN. -/
def State.countShort (s : State) (c : CtxId) (o : Op) (g : Segment) (moved : Nat) : State :=
  if o.kind = .poll ∨ (o.isCopy ∧ g.half = .source) then s
  else
    let s := s.modCtx c fun x => { x with offset := x.offset + moved }
    if o.writesHost then s.handData c o g moved else s

/-- A FLOW stop (R76, R77): the normal end of a DRAIN; for the other kinds a flow wait for the remainder. -/
def State.ownerFlow (s : State) (c : CtxId) (o : Op) (g : Segment) (moved : Nat) : State :=
  let s := (s.countShort c o g moved).discardStaged c
  if o.kind = .drain then s.endOp c none
  else
    let s := s.modCtx c Context.retried
    let x := s.ctx c
    let p := x.profileOf g.half
    if p.retryLimit < x.retries then s.failOp c .retryExhausted
    else
      let rest :=
        if o.kind = .poll then g else { g with place := g.place + moved, len := g.len - moved, remainder := true }
      (s.modCtx c fun x => { x with segment := some rest }).ownerWaits c .flow (s.now + p.baseDelay)

/-- A RETRY (R70, R71). -/
def State.ownerRetry (s : State) (c : CtxId) (g : Segment) : State :=
  let s := (s.discardStaged c).modCtx c Context.retried
  let x := s.ctx c
  let p := x.profileOf g.half
  if p.retryLimit < x.retries then s.failOp c .retryExhausted
  else s.ownerWaits c .retry (s.now + retryDelay p.baseDelay x.retries)

/-- A RELEASE (R74): the target's profile is invalidated, and the fourth on one op fails it. -/
def State.ownerRelease (s : State) (c : CtxId) (t : TargetId) : State :=
  let s := ((s.discardStaged c).modCtx c fun x => { x with releases := x.releases + 1 }).invalidate t
  if 4 ≤ (s.ctx c).releases then s.failOp c .releaseLoop else s.ownerPrepares c

/-- The owner's handling of the end of its access (R13); any access end sets op begun. -/
def State.ownerEnd (s : State) (a : Access) (how : AccessEnd) : State :=
  let c := a.owner
  let s := s.modCtx c fun x => { x with begun := true }
  match (s.ctx c).op, (s.ctx c).segment with
  | some o, some g =>
    let moved := bytesMoved a.snapshot a.beatsDone g.len
    match how with
    | .allDone => s.ownerDone c o g moved
    | .retry => s.ownerRetry c g
    | .fault => (s.discardStaged c).failOp c .deviceFault
    | .release => s.ownerRelease c a.target
    | .flowStop => s.ownerFlow c o g moved
    | .holdTimeout => ((s.countShort c o g moved).discardStaged c).failOp c .holdTimeout
  | _, _ => s

/-! ### The reset pulse (R63 to R65) -/

/-- The target-reset mark of a context whose current op has begun and has not ended (R24); a BUS_READY one is sent back
(R12). -/
def Context.pulseMarked (x : Context) : Context :=
  if x.begun && x.opIndex.isSome then
    let x := { x with targetReset := true }
    if x.state == .busReady then x.sentBack else x
  else x

/-- A reset pulse begins (R64). -/
def State.pulseBegin (s : State) : State :=
  (s.modBus fun b =>
    { b with
      state := .resetPulse (s.now + 100) false
      window := none, closePending := false, turnOff := none, localityRun := 0
      pulsePending := false, attachedNow := b.attachedNext, attachedNext := 0
      pins := { b.pins.dropped with treset := true } }).mapContexts Context.pulseMarked

/-- An RSTT request (R63): from IDLE the pulse begins at once, else it is pending. -/
def State.pulseRequest (s : State) : State :=
  let s' := s.modBus fun b => { b with attachedNext := b.attachedNext + 1 }
  match s.bus.state with
  | .idle => s'.pulseBegin
  | _ => s'.modBus fun b => { b with pulsePending := true }

/-! ### The end of an access (R54) -/

/-- The window closes at the end of an access (R54 step 2). -/
def closesAtEnd (b : BusCtl) (a : Access) (how : AccessEnd) : Bool :=
  match how with
  | .allDone | .flowStop => a.snapshot.closeAfter || (a.snapshot.isMemory && !a.snapshot.windowed) || b.closePending
  | _ => true

/-- The turn-off record after an access (R46). -/
def turnOffAfter (b : BusCtl) (a : Access) (clock : Nat) : Option (TargetId × Nat) :=
  if a.direction = .read ∧ 0 < a.beatsDone then
    (if 0 < a.snapshot.turnOff then some (a.target, clock + a.snapshot.turnOff) else none)
  else b.turnOff

/-- The Bus Controller's own part of an access end (R54 steps 2 to 4): window, turn-off record, access record. -/
def State.busReleased (s : State) (a : Access) (how : AccessEnd) : State :=
  s.modBus fun b =>
    let closes := closesAtEnd b a how
    { b with
      state := .idle
      window := if closes then none else b.window
      closePending := false
      turnOff := turnOffAfter b a s.clock
      pins := if closes then b.pins.dropped else b.pins.quiet }

/-- What follows the owner's handling of its access's end (R54 steps 5 and 6): the Lock Table evaluates, a pending pulse
begins, and preparations go on (in this order: log 5). -/
def State.afterOwner (s : State) : State :=
  let s := s.lockEvaluate
  (if s.bus.pulsePending then s.pulseBegin else s).settle

/-- The end of an access (R52, R54): a hold timeout quarantines first; then the bus is released, and the owner handles its
report. While RESETTING is set the report is discarded (R25, R67). -/
def State.accessEnds (s : State) (a : Access) (how : AccessEnd) : State :=
  let x := s.ctx a.owner
  let s := if how = .holdTimeout then s.quarantine a.target x.tag (x.queue.getD 0) else s
  let s := s.busReleased a how
  if s.regs.resetting then s else (s.ownerEnd a how).afterOwner

/-! ### Ends of phases -/

/-- The open phase has ended and the response code is taken (R49). -/
def State.openPhaseDone (s : State) (a : Access) (response : BitVec 2) : State :=
  match (if a.snapshot.responses then response.toNat else 0) with
  | 0 =>
    (s.modBus fun b =>
      { b with
        window := some
          { target := a.target, base := windowBase a.snapshot a.start, cls := a.snapshot.cls
            code := a.snapshot.window } }).startBeat a
  | 1 => s.accessEnds a .retry
  | 2 => s.accessEnds a .fault
  | _ => s.accessEnds a .release

/-- A beat's strobe has ended with HOLD deasserted (R50, R53): FLOW on a STREAM target stops the access, else the beat is
done, and after its recovery the next begins or the access ends (log 18). -/
def State.strobeDone (s : State) (a : Access) (flow : Bool) (lines : BitVec 32) : State :=
  if a.snapshot.isStream && flow then s.accessEnds { a with holdTimer := none } .flowStop
  else
    let s := (if a.direction = .read then s.storeBeat a lines else s).elapse a.snapshot.recovery
    let a := { a with beatsDone := a.beatsDone + 1, holdTimer := none }
    if a.beats ≤ a.beatsDone then s.accessEnds a .allDone else s.startBeat a

end Sys2Proof.Machine
end

