-- ==== Sys2Proof/Machine/Fetch.lean ====
section
/-! DEFINITION. The Record Fetcher and the fences (09_record_fetch_and_host_link_requests.md; 01, R3 to R7): the
evaluation that starts fetches, the transaction a loaded record becomes, and the halts a fetch finds. What follows a
fetch's end on its queue stands in Control.lean. -/

namespace Sys2Proof.Machine

/-- The place of queue `q`'s fetch record, for queues 1 to 8. -/
def fetchIndex (q : QueueId) : Fin 8 := Fin.ofNat 8 (q.val - 1)

def State.fetchOf (s : State) (q : QueueId) : Option FetchRecord := s.fetcher.records[fetchIndex q]

def State.setFetch (s : State) (q : QueueId) (f : Option FetchRecord) : State :=
  { s with fetcher := { s.fetcher with records := s.fetcher.records.set (fetchIndex q) f } }

/-- The lowest-numbered FREE context (R3). -/
def State.freeContext? (s : State) : Option CtxId :=
  (List.finRange 16).find? fun c => (s.ctx c).state == .free

/-- R2 allows an allocation: the counter exceeds no sequence number in use by 2³¹ − 1 or more. -/
def State.mayAllocate (s : State) : Bool :=
  (List.finRange 16).all fun c =>
    (s.ctx c).state == .free || decide ((s.seqCounter - (s.ctx c).seq).toNat < 2 ^ 31 - 1)

/-- The host address of slot `i` of a submission ring (R130). -/
def QueueRow.slotAddr (r : QueueRow) (i : Nat) : HostAddr := r.subBase + BitVec.ofNat 64 (64 * i)

/-- A fetch starts on queue `q` (R151, R3): the reservation is taken, context `c` goes to LOADING with the next sequence
number, the fetch record goes in flight and the header slot's read is listed (R152). -/
def State.startFetch (s : State) (q : QueueId) (c : CtxId) : State :=
  let r := s.queue q
  let s := (s.reserve q).modQueue q fun r => { r with outstanding := r.outstanding + 1 }
  let s := s.modCtx c fun x => { x with state := .loading, queue := some q, seq := s.seqCounter }
  let s := s.setFetch q (some { context := c, firstSlot := r.subHead })
  let s := s.modPort fun h =>
    { h with fetcherReads := h.fetcherReads ++ [{ ref := .slot q c 0, addr := r.slotAddr r.subHead, len := 64 }] }
  { s with seqCounter := s.seqCounter + 1, fetcher := { s.fetcher with pointer := q.val } }

/-- The first four conditions of R150 on a queue. -/
def State.fetchReady (s : State) (q : QueueId) : Bool :=
  let r := s.queue q
  r.state == .active && r.subTail != r.subHead && decide (r.outstanding < r.limit) && (s.fetchOf q).isNone

/-- The visit of one queue (R151). -/
def State.visitQueue (s : State) (q : QueueId) : State :=
  if s.fetchReady q && s.mayAllocate then
    match s.freeContext? with
    | none => s
    | some c => if (s.queue q).hasRoom then s.startFetch q c else s.refuse q
  else s

/-- An evaluation (R150, R151): the queues after the pointer, then up to it; none while RESETTING is set. -/
def State.fetchEvaluate (s : State) : State :=
  if s.regs.resetting then s
  else (rotation s.fetcher.pointer).foldl (fun s q => s.visitQueue (Fin.ofNat 9 q)) s

/-! ### From a loaded record to a transaction (R5 to R7) -/

/-- A context that may begin goes to LOCK_WAIT when its lock mask is not empty, else to PREPARING (R6, R7). -/
def State.beginTransaction (s : State) (c : CtxId) : State :=
  if (s.ctx c).lockMask = 0 then s.modCtx c fun x => { x with state := .preparing, prep := .run .start }
  else s.lockJoin c

/-- A context of the same queue with an older sequence number is not FREE (R6). -/
def State.olderInUse (s : State) (c : CtxId) : Bool :=
  (List.finRange 16).any fun d =>
    (s.ctx d).state != .free && (s.ctx d).queue == (s.ctx c).queue && older (s.ctx d).seq (s.ctx c).seq

/-- The fence test (R6). -/
def State.fenceTest (s : State) (c : CtxId) : State := if s.olderInUse c then s else s.beginTransaction c

/-- The fence tests made when a context of queue `q` has become FREE (R6), oldest first. -/
def State.fenceRelease (s : State) (q : QueueId) : State :=
  (s.contextsWhere fun x => x.state == .fenceWait && x.queue == some q).foldl State.fenceTest s

/-- How a load ends once the header has loaded (R155). -/
inductive LoadEnd where
  | allLoaded | oneSlot | short | extensionError
  deriving DecidableEq, Repr

/-- An accepted record's ops are copied and its transaction starts (R5). -/
def State.accept (s : State) (c : CtxId) (ops : List Op) : State :=
  let s := s.modCtx c fun x => { x.withOp 1 with ops, slots := [] }
  if (s.ctx c).fence then (s.modCtx c fun x => { x with state := .fenceWait }).fenceTest c
  else s.beginTransaction c

/-- What a context becomes at load end (R5). -/
def State.loadOutcome (s : State) (c : CtxId) (how : LoadEnd) : State :=
  let x := s.ctx c
  let ops := recordOps x.slots x.opCount x.returnIndex
  let s' := s.modCtx c fun x => { x with slots := [] }
  if x.abortPending then s'.completeAborted c
  else
    match how with
    | .short => s'.complete c .malformedRecord (some .malformedRecord)
    | .extensionError => s'.complete c .hostReadError (some .hostReadError)
    | .allLoaded | .oneSlot =>
      if recordOk x.slotCount x.opCount x.returnIndex ops then s.accept c ops
      else s'.complete c .malformedRecord (some .malformedRecord)

/-- The bit of queue `q` in the HALTED mask (11.1). -/
def haltedBit (q : QueueId) : BitVec 8 := 1#8 <<< (q.val - 1)

/-- A halt (R135): an ACTIVE queue goes to HALTED, the reason and the mask bit are set, and a notice is owed. -/
def State.halt (s : State) (q : QueueId) (why : HaltReason) : State :=
  ((s.modQueue q fun r =>
      { r with state := if r.state = .active then .halted else r.state, haltReason := why }).modRegs fun g =>
    { g with haltedMask := g.haltedMask ||| haltedBit q }).oweNotice

/-- What load end does before the fetch has ended (R155): the head advances or stays, the context goes on, the queue
halts. -/
def State.loadEnded (s : State) (q : QueueId) (c : CtxId) (expected : Nat) (how : LoadEnd) : State :=
  let slots := match how with
    | .allLoaded => expected
    | .oneSlot => 1
    | .short | .extensionError => 0
  let s := (s.modQueue q fun r => { r with subHead := (r.subHead + slots) % r.subSize }).setFetch q none
  let s := s.loadOutcome c how
  match how with
  | .short => s.halt q .shortRecord
  | .extensionError => s.halt q .fetchError
  | .allLoaded | .oneSlot => s

/-- The context after its header has loaded (R4). -/
def Context.withHeader (x : Context) (h : Header) (slot : List Byte) : Context :=
  { x with
    tag := h.tag, cookie := h.cookie, continues := h.continues, fence := h.fence, irqNow := h.irqNow
    lockMask := h.lockMask, headerLoaded := true, opCount := h.opCount, slotCount := h.slotCount
    returnIndex := h.returnIndex, slots := [(0, slot)] }

/-- The reads of extension slots 1 to n − 1, modulo the ring (R154). -/
def extensionReads (r : QueueRow) (q : QueueId) (c : CtxId) (first n : Nat) : List ReadReq :=
  (List.range (n - 1)).map fun i =>
    { ref := .slot q c (i + 1), addr := r.slotAddr ((first + i + 1) % r.subSize), len := 64 }

end Sys2Proof.Machine
end

