-- ==== Sys2Proof/Machine/Control.lean ====
section
/-! DEFINITION. The Control Unit (10_the_control_queue.md): reading control records, the nine commands, the pending
control list and the HELD command; and the queue's passage to DISABLED, which completes pending DISQs (08, R134). -/

namespace Sys2Proof.Machine

/-! ### Reading control records (R164) -/

/-- In IDLE with a record offered, the Control Unit asks for a reservation on queue 0: granted, it lists the slot's read;
refused, it waits in RESERVING (R164). -/
def State.controlTest (s : State) : State :=
  let r := s.queue 0
  if s.control.state = .idle ∧ r.state = .active ∧ r.subTail ≠ r.subHead ∧ !s.regs.resetting then
    if r.hasRoom then
      ((s.reserve 0).modControl fun k => { k with state := .reading }).modPort fun h =>
        { h with controlReads := h.controlReads ++ [{ ref := .control, addr := r.slotAddr r.subHead, len := 64 }] }
    else (s.refuse 0).modControl fun k => { k with state := .reserving }
  else s

/-- A control slot read has returned a host error (R164). -/
def State.controlReadFailed (s : State) : State :=
  (s.giveBack 0).modControl fun k => { k with state := .readFailed }

/-! ### Completions (R165) -/

/-- A command completes: its entry is handed against the reservation it holds. -/
def State.controlDone (s : State) (e : Entry) : State := s.handEntry 0 none false e

/-- The completion fields of R165. -/
def controlEntry (r : ControlRecord) (status : Status) : Entry := { tag := r.tag, status }

/-- The queue a CFGQ, ENQ, DISQ or ABT names: 1 to 8 (R165). -/
def ControlRecord.transactionQueue (r : ControlRecord) : Option QueueId :=
  if 1 ≤ r.queue.toNat ∧ r.queue.toNat ≤ 8 then some (Fin.ofNat 9 r.queue.toNat) else none

/-! ### Commands that finish at once -/

/-- UNKNOWN_COMMAND (R165). -/
def State.runUnknown (s : State) (r : ControlRecord) : State := s.controlDone (controlEntry r .unknownCommand)

/-- CFGQ's parameter check (R168, R185). -/
def ControlRecord.settingsOk (r : ControlRecord) : Bool :=
  codeOk r.subCode.toNat && codeOk r.cplCode.toNat
    && decide (r.subBase.toNat % 4096 = 0 ∧ r.cplBase.toNat % 4096 = 0)
    && decide (1 ≤ r.limit.toNat ∧ r.limit.toNat ≤ 16) && decide (1 ≤ r.weight.toNat ∧ r.weight.toNat ≤ 8)
    && decide (1 ≤ r.threshold.toNat)

/-- What CFGQ sets in a queue's row (R133). -/
def QueueRow.configure (q : QueueRow) (r : ControlRecord) : QueueRow :=
  { q with
    configured := true
    subBase := r.subBase, subSize := 2 ^ r.subCode.toNat, cplBase := r.cplBase, cplSize := 2 ^ r.cplCode.toNat
    limit := r.limit.toNat, weight := r.weight.toNat, threshold := r.threshold.toNat, delay := r.delay.toNat }

/-- CFGQ (R168). -/
def State.runCfgq (s : State) (r : ControlRecord) : State :=
  match r.transactionQueue with
  | none => s.controlDone (controlEntry r .badQueue)
  | some q =>
    if (s.queue q).state ≠ .disabled then s.controlDone (controlEntry r .queueBusy)
    else if !r.settingsOk then s.controlDone (controlEntry r .badParameter)
    else (s.modQueue q fun row => row.configure r).controlDone (controlEntry r .ok)

/-- What ENQ sets in a queue's row (R133). -/
def QueueRow.start (q : QueueRow) : QueueRow :=
  { q with
    state := .active, subHead := 0, subTail := 0, cplTail := 0, cplHead := 0, phase := true
    reserved := 0, outstanding := 0, count := 0, delayTimer := none, messageDue := false
    haltReason := .none, refused := false }

/-- ENQ (R169). -/
def State.runEnq (s : State) (r : ControlRecord) : State :=
  match r.transactionQueue with
  | none => s.controlDone (controlEntry r .badQueue)
  | some q =>
    if (s.queue q).state ≠ .disabled then s.controlDone (controlEntry r .queueBusy)
    else if !(s.queue q).configured then s.controlDone (controlEntry r .notConfigured)
    else ((s.modQueue q QueueRow.start).controlDone (controlEntry r .ok)).fetchEvaluate

/-- The contexts an ABT marks (R172). -/
def Context.matchesTag (x : Context) (q : QueueId) (tag : BitVec 16) : Bool :=
  x.queue == some q && x.headerLoaded && x.tag == tag && x.state != .free && x.state != .completing

/-- ABT (R172). -/
def State.runAbt (s : State) (r : ControlRecord) : State :=
  match r.transactionQueue with
  | none => s.controlDone (controlEntry r .badQueue)
  | some q =>
    let marked := s.contextsWhere fun x => x.matchesTag q r.matchTag
    if marked.isEmpty then s.controlDone (controlEntry r .notFound)
    else
      (marked.foldl State.abort s).controlDone
        { controlEntry r .ok with bytes := BitVec.ofNat 32 marked.length }

/-- INVP (R173): a target 0 to 15, or 0xFF for ALL. -/
def State.runInvp (s : State) (r : ControlRecord) : State :=
  if r.target = 0xFF#8 then s.invalidateAll.controlDone (controlEntry r .ok)
  else if r.target.toNat ≤ 15 then
    (s.invalidate (Fin.ofNat 16 r.target.toNat)).controlDone (controlEntry r .ok)
  else s.controlDone (controlEntry r .badParameter)

/-- RLST's RETURN data (R186): previous state, cause, tag and queue in bytes 16 to 20. Bytes 21 to 23, which no rule gives,
are written 0 (the model's choice, log 34). -/
def rowReport (row : TargetRow) : BitVec 64 :=
  match row with
  | none => 0
  | some (tag, q) => BitVec.ofNat 64 (1 + 256 + 65536 * tag.toNat + 4294967296 * q.val)

/-- RLST (R174, R82). -/
def State.runRlst (s : State) (r : ControlRecord) : State :=
  if r.target.toNat ≤ 15 then
    let t : TargetId := Fin.ofNat 16 r.target.toNat
    ({ s with targets := s.targets.set t none } : State).controlDone
      { controlEntry r .ok with ret := some (rowReport s.targets[t]) }
  else s.controlDone (controlEntry r .badParameter)

/-- QRYQ's completion (R177, R186): state, configured and halt reason in bytes 24 to 26. Byte 27, which no rule gives, is
written 0 (the model's choice, log 34). -/
def queryEntry (r : ControlRecord) (q : QueueId) (row : QueueRow) : Entry :=
  { controlEntry r .ok with
    ret := some (BitVec.ofNat 64
      (row.subHead + 2 ^ 16 * row.subTail + 2 ^ 32 * row.cplTail + 2 ^ 48 * row.cplHead))
    cookie := BitVec.ofNat 32 (row.state.code + 2 ^ 8 * row.configured.toNat + 2 ^ 16 * row.haltReason.code)
    opsCompleted := if q = 0 then 0 else row.outstanding
    totalRetries := row.reserved }

/-- QRYQ (R177). -/
def State.runQryq (s : State) (r : ControlRecord) : State :=
  if r.queue.toNat ≤ 8 then
    let q : QueueId := Fin.ofNat 9 r.queue.toNat
    s.controlDone (queryEntry r q (s.queue q))
  else s.controlDone (controlEntry r .badQueue)

/-- MARK (R178). -/
def State.runMark (s : State) (r : ControlRecord) : State :=
  s.controlDone { controlEntry r .ok with cookie := r.value }

/-! ### Deferred commands -/

/-- The command stays in hand and the Control Unit goes to HELD (R166). -/
def State.hold (s : State) (r : ControlRecord) : State :=
  s.modControl fun k => { k with state := .held, hand := some r }

def State.joinPending (s : State) (e : PendingEntry) : State :=
  s.modControl fun k => { k with pendingList := k.pendingList ++ [e] }

/-- A STOPPING queue becomes DISABLED (R134): its mask bit clears, a message is owed if entries are not yet signalled,
and its delay timer goes idle. -/
def State.disable (s : State) (q : QueueId) : State :=
  let s := (s.modQueue q fun r => { r with state := .disabled }).modRegs fun g =>
    { g with haltedMask := g.haltedMask &&& ~~~haltedBit q }
  let s := if 0 < (s.queue q).count then s.oweMessage q else s
  s.modQueue q fun r => { r with delayTimer := none }

/-- The queue still holds a context or has a fetch in flight, so it cannot reach DISABLED yet (R134, R165). -/
def State.queueBusy (s : State) (q : QueueId) : Bool :=
  decide (0 < (s.queue q).outstanding) || (s.fetchOf q).isSome

/-- DISQ moves an ACTIVE or HALTED queue to STOPPING; one that leaves HALTED clears its mask bit (R134). -/
def State.stopQueue (s : State) (q : QueueId) : State :=
  match (s.queue q).state with
  | .active | .halted =>
    (s.modQueue q fun r => { r with state := .stopping }).modRegs fun g =>
      { g with haltedMask := g.haltedMask &&& ~~~haltedBit q }
  | _ => s

/-- The contexts of a queue that a DISQ ABORT counts: all but FREE and COMPLETING ones (R170). -/
def Context.countedBy (x : Context) (q : QueueId) : Bool :=
  x.queue == some q && x.state != .free && x.state != .completing

/-- DISQ on a queue that is not DISABLED, past its checks (R170). -/
def State.stopAndMark (s : State) (q : QueueId) (abortMode : Bool) : State :=
  let s := s.stopQueue q
  if abortMode then
    (s.contextsWhere fun x => x.queue == some q && x.state != .free).foldl State.abort s
  else s

/-- DISQ (R170). -/
def State.runDisq (s : State) (r : ControlRecord) : State :=
  match r.transactionQueue with
  | none => s.controlDone (controlEntry r .badQueue)
  | some q =>
    if 1 < r.mode.toNat then s.controlDone (controlEntry r .badParameter)
    else if (s.queue q).state = .disabled then s.controlDone (controlEntry r .ok)
    else
      let abortMode := r.mode == 1#8
      let marked := if abortMode then (s.contextsWhere fun x => x.countedBy q).length else 0
      if s.queueBusy q then
        if 4 ≤ s.control.pendingList.length then s.hold r
        else (s.stopAndMark q abortMode).joinPending { tag := r.tag, kind := .disq q abortMode marked }
      else
        ((s.stopAndMark q abortMode).disable q).controlDone
          { controlEntry r .ok with bytes := BitVec.ofNat 32 marked }

/-- RSTT (R175): it joins the list and a pulse is requested, or it is held while four entries are in the list. -/
def State.runRstt (s : State) (r : ControlRecord) : State :=
  if 4 ≤ s.control.pendingList.length then s.hold r
  else (s.joinPending { tag := r.tag, kind := .rstt }).pulseRequest

/-- A HELD command is taken again from the start when an entry has left the list (R166). Only a DISQ or an RSTT is ever
held. -/
def State.retakeHeld (s : State) : State :=
  match s.control.state, s.control.hand with
  | .held, some r =>
    let s := s.modControl fun k => { k with state := .idle, hand := none }
    (if r.command = 0x03#8 then s.runDisq r else s.runRstt r).controlTest
  | _, _ => s

/-- The completion of a pending entry whose condition is met (R171, R176). -/
def pendingCompletion (e : PendingEntry) : Entry :=
  match e.kind with
  | .disq _ _ marked => { tag := e.tag, status := .ok, bytes := BitVec.ofNat 32 marked }
  | .rstt => { tag := e.tag, status := .ok }

/-- The entries `done` leave the list together and complete in the order they joined (R167), and a HELD command is taken
again (R166). While RESETTING is set none completes (R179). -/
def State.pendingDone (s : State) (done rest : List PendingEntry) : State :=
  if s.regs.resetting ∨ done.isEmpty then s
  else
    (done.foldl (fun s e => s.controlDone (pendingCompletion e))
      (s.modControl fun k => { k with pendingList := rest })).retakeHeld

/-- The entry is a DISQ that waits for queue `q`. -/
def PendingEntry.waitsFor (e : PendingEntry) (q : QueueId) : Bool :=
  match e.kind with
  | .disq q' _ _ => q' == q
  | .rstt => false

/-- The test of R134, made when a context of the queue is freed and when its fetch ends: a STOPPING queue that holds
nothing becomes DISABLED and its pending DISQs complete (R171). -/
def State.queueTest (s : State) (q : QueueId) : State :=
  if (s.queue q).state = .stopping ∧ !s.queueBusy q then
    let s := s.disable q
    s.pendingDone (s.control.pendingList.filter (·.waitsFor q)) (s.control.pendingList.filter fun e => !e.waitsFor q)
  else s

/-- The first `n` RSTT entries of the list, and the rest (log 19). -/
def splitRstt : Nat → List PendingEntry → List PendingEntry × List PendingEntry
  | _, [] => ([], [])
  | n, e :: rest =>
    if e.kind = .rstt ∧ 0 < n then
      let (d, r) := splitRstt (n - 1) rest
      (e :: d, r)
    else
      let (d, r) := splitRstt n rest
      (d, e :: r)

/-! ### The control slot read returns (R164, R165) -/

/-- The tag of the control slot read in flight: there is at most one (R163). -/
def State.controlTag (s : State) : Option TagId :=
  (List.finRange 8).find? fun i =>
    match s.port.tags[i] with
    | .inFlight r _ => r.ref == .control
    | _ => false

/-- Queue 0 and the Control Unit once the control slot read under tag `i` has returned with its bytes (R160, R164): the tag
is FREE, the head has advanced, and the Control Unit is in IDLE for the record it takes. -/
def State.slotTaken (s : State) (i : TagId) : State :=
  ((s.setTag i .free).modQueue 0 fun r => { r with subHead := (r.subHead + 1) % r.subSize }).modControl fun k =>
    { k with state := .idle, hand := none }

/-- The control slot read returns with a record of the row's command: the tag becomes FREE, the head advances, and the
record is taken (R160, R164, R165). While RESETTING is set the response is discarded (R179). A slot that is not the row's,
or that no read awaits, changes nothing (log 1, log 22). -/
def State.takeSlot (s : State) (slot : List Byte) (isRow : Byte → Bool) (run : State → ControlRecord → State) : State :=
  match s.controlTag with
  | none => s
  | some i =>
    if slot.length ≠ 64 ∨ !isRow (byteAt slot 0) then s
    else if s.regs.resetting then s.setTag i .free
    else ((run (s.slotTaken i) (parseControl slot)).controlTest).settle

/-! ### The end of a fetch (R155) -/

/-- A fetch has ended: a STOPPING queue is tested, and the fetcher makes an evaluation (R155). -/
def State.fetchEnded (s : State) (q : QueueId) : State := ((s.queueTest q).fetchEvaluate).settle

/-- Load end (R155). -/
def State.loadEnd (s : State) (q : QueueId) (c : CtxId) (expected : Nat) (how : LoadEnd) : State :=
  (s.loadEnded q c expected how).fetchEnded q

/-- A context becomes FREE (R1, R21) and leaves its queue's outstanding count. -/
def State.freeContext (s : State) (q : QueueId) (c : CtxId) : State :=
  (s.modCtx c fun _ => {}).modQueue q fun r => { r with outstanding := r.outstanding - 1 }

/-- The header slot's read has returned (R152, R153). -/
def State.headerReturned (s : State) (q : QueueId) (c : CtxId) (response : Response) : State :=
  match response with
  | .hostError =>
    ((((s.freeContext q c).giveBack q).setFetch q none).fenceRelease q |>.halt q .fetchError).fetchEnded q
  | .data slot =>
    let h := parseHeader slot
    let r := s.queue q
    let first := (s.fetchOf q).elim r.subHead (·.firstSlot)
    let s := s.modCtx c fun x => x.withHeader h slot
    if h.slotCount = 0 ∨ 4 < h.slotCount then s.loadEnd q c 1 .oneSlot
    else if (r.subTail + r.subSize - first) % r.subSize < h.slotCount then s.loadEnd q c h.slotCount .short
    else if h.slotCount = 1 then s.loadEnd q c 1 .allLoaded
    else
      (s.setFetch q (some { context := c, firstSlot := first, phase := .extension, expected := h.slotCount, loaded := 1 })).modPort
        fun p => { p with fetcherReads := p.fetcherReads ++ extensionReads r q c first h.slotCount }

/-- A listed fetcher read is an extension read of context `c`'s record. -/
def ReadRef.isSlotOf (r : ReadRef) (c : CtxId) : Bool :=
  match r with
  | .slot _ c' _ => c' == c
  | _ => false

/-- An extension slot's read has returned (R154). -/
def State.extensionReturned (s : State) (q : QueueId) (c : CtxId) (n : Nat) (response : Response) : State :=
  match s.fetchOf q with
  | none => s
  | some f =>
    let f := { f with inFlight := f.inFlight - 1 }
    match response, f.error with
    | .data slot, false =>
      let f := { f with loaded := f.loaded + 1 }
      let s := (s.setFetch q (some f)).modCtx c fun x => { x with slots := x.slots ++ [(n, slot)] }
      if f.loaded = f.expected then s.loadEnd q c f.expected .allLoaded else s
    | _, _ =>
      let s := (s.setFetch q (some { f with error := true })).modPort fun p =>
        { p with fetcherReads := p.fetcherReads.filter fun r => !r.ref.isSlotOf c }
      if f.inFlight = 0 then s.loadEnd q c f.expected .extensionError else s

end Sys2Proof.Machine
end

