-- ==== Sys2Proof/Machine/BusEvents.lean ====
section
/-! DEFINITION. The commands of the target bus (R45 to R62): the grant, the ends of the phases of an access, HOLD, and the
timers on which a context waits between accesses (R16, R17, R72, R77). -/

namespace Sys2Proof.Machine

/-! ### The grant -/

/-- The access record filled from a context's ready segment (R45). -/
def accessFor (c : CtxId) (x : Context) (o : Op) (g : Segment) : Access :=
  let p := (x.profileOf g.half).bus
  { owner := c, half := g.half, target := g.target, direction := o.direction g.half, start := g.addr
    beats := accessBeats o p g.len, snapshot := p, phase := .turnOffWait }

/-- The grant conditions but for a candidate (R59). -/
def State.mayGrant (s : State) : Bool := s.bus.state == .idle && !s.bus.pulsePending && !s.regs.resetting

/-- The access begins with a turn-off wait (R46). -/
def State.waitsTurnOff (s : State) (a : Access) : Bool :=
  s.bus.turnOff.any fun r => r.1 != a.target && decide (s.clock < r.2)

/-- An access is granted (R45): the context is ON_BUS, the arbiter's counts take their new values, the next segment is
staged (R121), and the access begins with its turn-off wait or its first phase. -/
def State.grantAccess (s : State) (a : Access) (lastQueue queueRun localityRun : Nat) : State :=
  let s := s.modBus fun b => { b with state := .access a, lastQueue, queueRun, localityRun }
  let s := (s.modCtx a.owner fun x => { x with state := .onBus }).claimSecond a.owner
  if s.waitsTurnOff a then s else s.startFirstPhase a

/-- BUS_GRANT (R59). -/
def execBusGrant (s : State) : Host.Outcome State Fault Refusal :=
  match (if s.mayGrant then s.arbiterPick else none) with
  | none => .next s
  | some (c, l, r, n) =>
    match (s.ctx c).op, (s.ctx c).segment with
    | some o, some g => .next (s.grantAccess (accessFor c (s.ctx c) o g) l r n)
    | _, _ => .next s

/-! ### Ends of phases -/

/-- TURN_OFF_WAIT_END (R46): the record's end time is reached and the first phase begins. -/
def execTurnOffWaitEnd (s : State) : Host.Outcome State Fault Refusal :=
  match s.bus.state with
  | .access a =>
    if a.phase = .turnOffWait then
      .next ((s.until (s.bus.turnOff.elim 0 fun r => r.2)).turnOffWaitOver a)
    else .next s
  | _ => .next s

/-- The access in progress in a phase, its hold timer idle. -/
def State.runningIn (s : State) (p : BusPhase) : Option Access :=
  match s.bus.state with
  | .access a => if a.phase = p ∧ a.holdTimer = none then some a else none
  | _ => none

/-- HOLD stretches the phase and the hold timer starts (R51). -/
def State.holdStarts (s : State) (a : Access) : State := s.setAccess { a with holdTimer := some s.now }

/-- OPEN_PHASE_END (R49): the open phase has lasted its setup clocks (R48), and HOLD stretches it or the code is taken. -/
def execOpenPhaseEnd (hold : Bool) (response : BitVec 2) (s : State) : Host.Outcome State Fault Refusal :=
  match s.runningIn .openPhase with
  | none => .next s
  | some a =>
    let s := s.elapse (max 1 a.snapshot.setup)
    if hold then .next (s.holdStarts a) else .next (s.openPhaseDone a response)

/-- BEAT_END (R50): the beat's strobe has lasted its clocks, and HOLD stretches it or the beat ends. -/
def execBeatEnd (hold flow : Bool) (lines : BitVec 32) (s : State) : Host.Outcome State Fault Refusal :=
  match s.runningIn .beats with
  | none => .next s
  | some a =>
    let s := s.elapse (max 1 a.snapshot.strobe)
    if hold then .next (s.holdStarts a) else .next (s.strobeDone a flow lines)

/-- The access whose phase HOLD stretches, with the time its hold timer started. -/
def State.heldAccess (s : State) : Option (Access × Nat) :=
  match s.bus.state with
  | .access a => a.holdTimer.map fun t => (a, t)
  | _ => none

/-- HOLD_DROP (R51): the stretched phase ends as it would have ended without HOLD. -/
def execHoldDrop (response : BitVec 2) (flow : Bool) (lines : BitVec 32) (s : State) :
    Host.Outcome State Fault Refusal :=
  match s.heldAccess with
  | none => .next s
  | some (a, _) =>
    let a := { a with holdTimer := none }
    match a.phase with
    | .openPhase => .next (s.openPhaseDone a response)
    | .beats => .next (s.strobeDone a flow lines)
    | .turnOffWait => .next s

/-- HOLD_TIMEOUT (R52): the hold timer reaches the snapshot's hold limit. -/
def execHoldTimeout (s : State) : Host.Outcome State Fault Refusal :=
  match s.heldAccess with
  | none => .next s
  | some (a, started) =>
    .next ((s.untilUs (started + a.snapshot.holdLimit)).accessEnds { a with holdTimer := none } .holdTimeout)

/-! ### Timers of contexts (R17) -/

/-- A context's timer of kind `k` is due: it goes idle and the context goes to PREPARING (R17). -/
def State.timerDue (s : State) (c : CtxId) (k : TimerKind) : State :=
  let x := s.ctx c
  match x.timer with
  | some (kind, due) =>
    if x.state = .timerWait ∧ kind = k then
      ((s.untilUs due).modCtx c fun x => { x.sentBack with timer := none }).settle
    else s
  | none => s

/-- RETRY_TIMER_DUE (R72). -/
def execRetryTimerDue (context : CtxId) (s : State) : Host.Outcome State Fault Refusal :=
  .next (s.timerDue context .retry)

/-- POLL_TIMER_DUE (R16). -/
def execPollTimerDue (context : CtxId) (s : State) : Host.Outcome State Fault Refusal :=
  .next (s.timerDue context .poll)

/-- FLOW_TIMER_DUE (R77). -/
def execFlowTimerDue (context : CtxId) (s : State) : Host.Outcome State Fault Refusal :=
  .next (s.timerDue context .flow)

end Sys2Proof.Machine
end

