-- ==== Sys2Proof/Machine/ControlCommands.lean ====
section
/-! DEFINITION. The control commands: the control slot read returns with a record of the row's command, which is taken
(R164, R165). -/

namespace Sys2Proof.Machine

/-- UNKNOWN_COMMAND (R165). -/
def execUnknownCommand (slot : List Byte) (s : State) : Host.Outcome State Fault Refusal :=
  .next (s.takeSlot slot (fun b => decide (b.toNat = 0 ∨ 9 < b.toNat)) State.runUnknown)

/-- CFGQ (R168). -/
def execCfgq (slot : List Byte) (s : State) : Host.Outcome State Fault Refusal :=
  .next (s.takeSlot slot (· == 0x01#8) State.runCfgq)

/-- ENQ (R169). -/
def execEnq (slot : List Byte) (s : State) : Host.Outcome State Fault Refusal :=
  .next (s.takeSlot slot (· == 0x02#8) State.runEnq)

/-- DISQ (R170). -/
def execDisq (slot : List Byte) (s : State) : Host.Outcome State Fault Refusal :=
  .next (s.takeSlot slot (· == 0x03#8) State.runDisq)

/-- ABT (R172). -/
def execAbt (slot : List Byte) (s : State) : Host.Outcome State Fault Refusal :=
  .next (s.takeSlot slot (· == 0x04#8) State.runAbt)

/-- INVP (R173). -/
def execInvp (slot : List Byte) (s : State) : Host.Outcome State Fault Refusal :=
  .next (s.takeSlot slot (· == 0x05#8) State.runInvp)

/-- RLST (R174). -/
def execRlst (slot : List Byte) (s : State) : Host.Outcome State Fault Refusal :=
  .next (s.takeSlot slot (· == 0x06#8) State.runRlst)

/-- RSTT (R175). -/
def execRstt (slot : List Byte) (s : State) : Host.Outcome State Fault Refusal :=
  .next (s.takeSlot slot (· == 0x07#8) State.runRstt)

/-- QRYQ (R177). -/
def execQryq (slot : List Byte) (s : State) : Host.Outcome State Fault Refusal :=
  .next (s.takeSlot slot (· == 0x08#8) State.runQryq)

/-- MARK (R178). -/
def execMark (slot : List Byte) (s : State) : Host.Outcome State Fault Refusal :=
  .next (s.takeSlot slot (· == 0x09#8) State.runMark)

end Sys2Proof.Machine
end

