-- ==== Sys2Proof/Machine/HostReads.lean ====
section
/-! DEFINITION. The read side of the Host Port (R158 to R160): grants of tags, returns of reads with bytes or with an error,
timeouts and stale tags; and what the data mover does with its returns (R125). -/

namespace Sys2Proof.Machine

/-! ### Granting tags (R159) -/

/-- The order in which the classes are visited, from the one after the class pointer. -/
def classOrder (last : Option ReqClass) : List ReqClass :=
  match last with
  | none | some .dataMover => [.fetcher, .controlFetch, .profileLoader, .dataMover]
  | some .fetcher => [.controlFetch, .profileLoader, .dataMover, .fetcher]
  | some .controlFetch => [.profileLoader, .dataMover, .fetcher, .controlFetch]
  | some .profileLoader => [.dataMover, .fetcher, .controlFetch, .profileLoader]

/-- The data mover's next read (R124, R159): of the oldest context, its current segment's before its staged one's. -/
def State.nextMoverRead (s : State) : Option ReadReq :=
  (s.oldest ((List.finRange 16).filter fun c => s.port.moverReads.any fun r => r.ref.isDataOf c)).bind fun c =>
    let mine := s.port.moverReads.filter fun r => r.ref.isDataOf c
    match s.chunkWith c .current with
    | none => mine.head?
    | some k => (mine.find? fun r => r.ref.isChunk k).or mine.head?

/-- The next read of a class. -/
def State.nextReadOf (s : State) (k : ReqClass) : Option ReadReq :=
  match k with
  | .fetcher => s.port.fetcherReads.head?
  | .controlFetch => s.port.controlReads.head?
  | .profileLoader => s.port.loaderReads.head?
  | .dataMover => s.nextMoverRead

/-- The class served next, with its read. -/
def State.nextRead (s : State) : Option (ReqClass × ReadReq) :=
  (classOrder s.port.classPtr).findSome? fun k => (s.nextReadOf k).map fun r => (k, r)

/-- The lowest-numbered FREE tag. -/
def State.freeTag? (s : State) : Option TagId :=
  (List.finRange 8).find? fun i => s.port.tags[i] == Tag.free

/-- A read leaves its class's waiting reads. -/
def HostPort.unlist (h : HostPort) (k : ReqClass) (r : ReadReq) : HostPort :=
  match k with
  | .fetcher => { h with fetcherReads := h.fetcherReads.erase r }
  | .controlFetch => { h with controlReads := h.controlReads.erase r }
  | .profileLoader => { h with loaderReads := h.loaderReads.erase r }
  | .dataMover => { h with moverReads := h.moverReads.erase r }

/-- An extension read issued raises its fetch record's reads in flight (R154). -/
def State.countIssued (s : State) (r : ReadRef) : State :=
  match r with
  | .slot q _ (_ + 1) => s.setFetch q ((s.fetchOf q).map fun f => { f with inFlight := f.inFlight + 1 })
  | _ => s

/-- The read goes out under tag `i` at the present time (R159). -/
def State.issueRead (s : State) (i : TagId) (k : ReqClass) (r : ReadReq) : State :=
  ((s.modPort fun h => { h.unlist k r with classPtr := some k, tags := h.tags.set i (.inFlight r s.now) })).countIssued r.ref

/-- TAG_GRANT (R159): one tag granted and one read issued. -/
def execTagGrant (s : State) : Host.Outcome State Fault Refusal :=
  if s.regs.resetting then .next s
  else
    match s.freeTag?, s.nextRead with
    | some i, some (k, r) => .next (s.issueRead i k r)
    | _, _ => .next s

/-! ### Data mover reads (R125) -/

/-- The segment a chunk of a context is held for is replaced. -/
def State.putSegment (s : State) (c : CtxId) (role : Role) (g : Segment) : State :=
  s.modCtx c fun x =>
    match role with
    | .current => { x with segment := some g }
    | .staged => { x with staged := some g }
    | .ended => x

/-- A segment's read has returned, with the others of the segment awaited or not: its data have arrived, or its host read
has failed, once none is listed or in flight (R125). -/
def Segment.afterRead (g : Segment) (failed awaited : Bool) : Segment :=
  let g := { g with readError := g.readError || failed }
  if awaited then g else { g with hostRead := if g.readError then .failed else .arrived }

/-- A read that a longer cut of segment `g` overtook returns: its data are discarded, and once none of its reads is in
flight the segment is read anew (R124), or its host read has failed if one of them returned an error (R33, R125). -/
def State.overtakenRead (s : State) (c : CtxId) (k : ChunkId) (role : Role) (g : Segment) (failed : Bool) : State :=
  let g := { g with readError := g.readError || failed }
  if s.readInFlight (·.isChunk k) then s.putSegment c role g
  else if g.readError then s.putSegment c role { g with hostRead := .failed, reread := false }
  else
    match (s.ctx c).op with
    | none => s
    | some o => (s.listReads c k o g).putSegment c role g.reading

/-- A read of segment `g` in chunk `k` returns: its bytes go to their place, or the segment's listed reads are dropped
(R125). -/
def State.segmentRead (s : State) (c : CtxId) (k : ChunkId) (role : Role) (g : Segment) (place : Nat) (r : Response) :
    State :=
  if g.reread then s.overtakenRead c k role g (r == .hostError)
  else
    match r with
    | .data bytes =>
      let s := s.modPool fun p => { p with memory := p.memory.writeBytes (chunkAddr k place) bytes }
      s.putSegment c role (g.afterRead false (s.readInFlight (·.isChunk k) || s.readListed k))
    | .hostError =>
      let s := s.dropReads (·.isChunk k)
      s.putSegment c role (g.afterRead true (s.readInFlight (·.isChunk k)))

/-- A context that uses none of the data of its reads: it is aborted, or waits for its reads before it fails (R23, R24). -/
def Context.ignoresReads (x : Context) : Bool := x.abortPending || x.prep == .waitReads || x.state == .completing

/-- The chunk's side of a return: a chunk whose segment has ended may now be freed (R122); else the segment takes the
return. -/
def State.chunkRead (s : State) (c : CtxId) (k : ChunkId) (place : Nat) (r : Response) : State :=
  match s.pool.chunks[k] with
  | none => s
  | some h =>
    match h.role with
    | .ended => s.freeIfDone k
    | role =>
      if (s.ctx c).ignoresReads then s
      else
        match (if role = .staged then (s.ctx c).staged else (s.ctx c).segment) with
        | none => s
        | some g => s.segmentRead c k role g place r

/-- The context's side of a return: step 7 goes on when the current segment's data have arrived or failed (R10); a context
that waited for its reads fails or completes ABORTED when none is in flight (R23, R24). -/
def State.afterDataRead (s : State) (c : CtxId) : State :=
  let x := s.ctx c
  if x.state != .preparing then s
  else
    match x.prep with
    | .waitData => if x.segment.any fun g => g.hostRead == .pending then s else s.setPrep c (.run .data)
    | .waitReads =>
      if x.abortPending then s.finishAbort c
      else if s.readInFlight (·.isDataOf c) then s
      else s.setPrep c (.run .start)
    | _ => s

/-- A data mover read has returned (R125). -/
def State.dataReturned (s : State) (c : CtxId) (k : ChunkId) (place : Nat) (r : Response) : State :=
  ((s.chunkRead c k place r).afterDataRead c).settle

/-! ### Returns (R160) -/

/-- The requester named by a reference is handed a response (R160). A control slot's bytes come by the rows of the control
commands. -/
def State.handResponse (s : State) (ref : ReadRef) (r : Response) : State :=
  match ref with
  | .slot q c 0 => s.headerReturned q c r
  | .slot q c (n + 1) => s.extensionReturned q c (n + 1) r
  | .control =>
    match r with
    | .hostError => s.controlReadFailed
    | .data _ => s
  | .profile t => s.profileReturned t r
  | .data c k place => s.dataReturned c k place r

/-- The read in flight under a tag. -/
def State.inFlight (s : State) (i : TagId) : Option ReadReq :=
  match s.port.tags[i] with
  | .inFlight r _ => some r
  | _ => none

/-- A response that is complete for a read of `n` bytes: as many bytes, or a host error (R160). -/
def responseComplete (r : Response) (n : Nat) : Bool :=
  match r with
  | .data bytes => bytes.length == n
  | .hostError => true

/-- A read of the row's kind returns under tag `i` (R160): the tag becomes FREE and the requester is handed the response,
but no requester is told while RESETTING is set. A response that is not complete is no return (log 22). -/
def State.readReturns (s : State) (i : TagId) (r : Response) (ofRow : ReadRef → Bool) : State :=
  match s.inFlight i with
  | none => s
  | some q =>
    if !ofRow q.ref || !responseComplete r q.len then s
    else
      let s := s.setTag i .free
      if s.regs.resetting then s else s.handResponse q.ref r

def ReadRef.isHeader (r : ReadRef) : Bool :=
  match r with
  | .slot _ _ 0 => true
  | _ => false

def ReadRef.isExtension (r : ReadRef) : Bool :=
  match r with
  | .slot _ _ (_ + 1) => true
  | _ => false

def ReadRef.isProfile (r : ReadRef) : Bool :=
  match r with
  | .profile _ => true
  | _ => false

def ReadRef.isData (r : ReadRef) : Bool :=
  match r with
  | .data _ _ _ => true
  | _ => false

/-- HEADER_SLOT_RETURN (R152). -/
def execHeaderSlotReturn (tag : TagId) (response : Response) (s : State) : Host.Outcome State Fault Refusal :=
  .next (s.readReturns tag response ReadRef.isHeader)

/-- EXTENSION_SLOT_RETURN (R154). -/
def execExtensionSlotReturn (tag : TagId) (response : Response) (s : State) : Host.Outcome State Fault Refusal :=
  .next (s.readReturns tag response ReadRef.isExtension)

/-- PROFILE_LOAD_RETURN (R93, R95, R96). -/
def execProfileLoadReturn (tag : TagId) (response : Response) (s : State) : Host.Outcome State Fault Refusal :=
  .next (s.readReturns tag response ReadRef.isProfile)

/-- DATA_READ_RETURN (R125). -/
def execDataReadReturn (tag : TagId) (response : Response) (s : State) : Host.Outcome State Fault Refusal :=
  .next (s.readReturns tag response ReadRef.isData)

/-- CONTROL_READ_ERROR (R164): the control slot read returns with a host error. -/
def execControlReadError (s : State) : Host.Outcome State Fault Refusal :=
  match s.controlTag with
  | none => .next s
  | some i => .next (s.readReturns i .hostError fun r => r == .control)

/-! ### Timeouts and stale tags (R160) -/

/-- HOST_READ_TIMEOUT (R160): 10,000 µs after the issue the tag becomes STALE and its requester is handed a host error. -/
def execHostReadTimeout (tag : TagId) (s : State) : Host.Outcome State Fault Refusal :=
  match s.port.tags[tag] with
  | .inFlight r issued =>
    let s := s.untilUs (issued + 10000)
    let s := s.setTag tag (.stale s.now)
    if s.regs.resetting then .next s else .next (s.handResponse r.ref .hostError)
  | _ => .next s

/-- STALE_TAG_EXPIRY (R160): 50,000 µs after it became STALE a tag becomes FREE. -/
def execStaleTagExpiry (tag : TagId) (s : State) : Host.Outcome State Fault Refusal :=
  match s.port.tags[tag] with
  | .stale since => .next ((s.untilUs (since + 50000)).setTag tag .free)
  | _ => .next s

/-- STALE_RESPONSE (R160): a response for a STALE tag frees it; one for a FREE tag is discarded. -/
def execStaleResponse (tag : TagId) (s : State) : Host.Outcome State Fault Refusal :=
  match s.port.tags[tag] with
  | .stale _ => .next (s.setTag tag .free)
  | _ => .next s

end Sys2Proof.Machine
end

