-- ==== Sys2Proof/Machine/HostWrites.lean ====
section
/-! DEFINITION. The write side of the Host Port (R161) and what an issue brings (R21, R122, R141, R143), the handing of a
context's completion entry (R21, R141), and the moderation delay (R144). -/

namespace Sys2Proof.Machine

/-- A COMPLETING context may hand its entry (R21): no host read of it in flight and no data write of it owed. -/
def State.mayHand (s : State) (c : CtxId) : Bool :=
  (s.ctx c).state == .completing && !(s.ctx c).handed && !s.regs.resetting
    && !s.readInFlight (·.isDataOf c) && !s.writeOwed (·.dataOf c)

/-- Every chunk a context still holds is freed (R123). -/
def State.freeChunksOf (s : State) (c : CtxId) : State := (s.chunksOf c).foldl State.freeChunk s

/-- A context's entry is handed (R141, R21): it takes the place at its queue's completion tail, and the context's chunks
are freed (R123). -/
def State.handContext (s : State) (c : CtxId) (q : QueueId) (e : Entry) : State :=
  let s := (s.handEntry q (some c) (s.ctx c).irqNow e).modCtx c fun x => { x with handed := true }
  (s.freeChunksOf c).settle

/-- COMPLETION_HANDOFF (R141). -/
def execCompletionHandoff (context : CtxId) (s : State) : Host.Outcome State Fault Refusal :=
  match (s.ctx context).queue, (s.ctx context).entry with
  | some q, some e => if s.mayHand context then .next (s.handContext context q e) else .next s
  | _, _ => .next s

/-- What the issue of a context's entry brings (R21): its chunks and locks are released, it becomes FREE, and the fences,
a STOPPING queue and the Record Fetcher take notice (R6, R134, R150). -/
def State.contextIssued (s : State) (q : QueueId) (c : CtxId) : State :=
  (((((s.freeChunksOf c).lockRelease c).freeContext q c).fenceRelease q).queueTest q).fetchEvaluate.settle

/-- ENTRY_ISSUED (R21, R141, R143): the entry at the head of the issue queue is issued. -/
def execEntryIssued (s : State) : Host.Outcome State Fault Refusal :=
  match s.port.issueQueue.head? with
  | some (.entry q context irqNow _ _ _) =>
    let s := s.popWrite.moderate q irqNow
    match context with
    | none => .next s
    | some c => .next (s.contextIssued q c)
  | _ => .next s

/-- DATA_WRITE_ISSUED (R161, R122): the data write at the head of the issue queue is issued, and its chunk is freed when it
was the last. -/
def execDataWriteIssued (s : State) : Host.Outcome State Fault Refusal :=
  match s.port.issueQueue.head? with
  | some (.data _ k _ _) => .next (s.popWrite.freeIfDone k).settle
  | _ => .next s

/-- MESSAGE_ISSUED (R161): the message at the head of the issue queue is issued. -/
def execMessageIssued (s : State) : Host.Outcome State Fault Refusal :=
  match s.port.issueQueue.head? with
  | some (.message _) => .next s.popWrite
  | _ => .next s

/-- DELAY_TIMER_DUE (R144): the timer goes idle, and a message is owed when the count is above 0. -/
def execDelayTimerDue (queue : QueueId) (s : State) : Host.Outcome State Fault Refusal :=
  match (s.queue queue).delayTimer with
  | none => .next s
  | some due =>
    let s := (s.untilUs due).modQueue queue fun r => { r with delayTimer := none }
    if 0 < (s.queue queue).count then .next (s.oweMessage queue) else .next s

end Sys2Proof.Machine
end

