-- ==== Sys2Proof/Machine/Registers.lean ====
section
/-! DEFINITION. The host's writes to the register window (11.1, R180 to R184) and to the INDEX_PORT (R136 to R138). -/

namespace Sys2Proof.Machine

/-! ### CONTROL and STATUS -/

/-- Queue 0's row when an enable is taken (R132): bases and sizes from CTLQ_RING and CTLQ_CPL, indices and counts at their
starting values. -/
def QueueRow.enabledFrom (q : QueueRow) (r : Regs) : QueueRow :=
  { q with
    state := .active, configured := true
    subBase := r.ctlqRing &&& baseFields, subSize := 2 ^ ringCode r.ctlqRing
    cplBase := r.ctlqCpl &&& baseFields, cplSize := 2 ^ ringCode r.ctlqCpl
    subHead := 0, subTail := 0, cplTail := 0, cplHead := 0, phase := true, reserved := 0
    count := 0, delayTimer := none, messageDue := false }

/-- An enable is taken (R132, R181, R88): queue 0 starts, the profile table base is sampled, ENABLED sets, and the Control
Unit tests for a record. -/
def State.takeEnable (s : State) : State :=
  ((s.modQueue 0 fun q => q.enabledFrom s.regs).modRegs fun r =>
    { r with enabled := true, profileTable := r.profileBase }).controlTest

/-- Both sampled size codes give 16 to 4,096 (R181). -/
def Regs.ringsOk (r : Regs) : Bool := codeOk (ringCode r.ctlqRing) && codeOk (ringCode r.ctlqCpl)

/-- ENABLE (R181, R132): taken while disabled with both size codes good; IRQ_ENABLE takes the value written in every case.
Where one write does both with IRQ_ENABLE going from 0 to 1, which comes first is free (log 7). -/
def execEnable (value : BitVec 32) (s : State) : Host.Outcome State Fault Refusal :=
  let on := value.getLsbD 2
  if s.regs.resetting then .next s
  else if s.regs.enabled || !s.regs.ringsOk then .next (s.writeIrqEnable on)
  else if on && !s.regs.irqEnable && Config.irqBeforeEnable then .next (s.writeIrqEnable on).takeEnable
  else .next (s.takeEnable.writeIrqEnable on)

/-- IRQ_ENABLE (R145, R181): taken whenever RESETTING is clear. -/
def execIrqEnable (value : BitVec 32) (s : State) : Host.Outcome State Fault Refusal :=
  if s.regs.resetting then .next s else .next (s.writeIrqEnable (value.getLsbD 2))

/-- INDEX_ERROR_CLEAR (R183): bit 2 clears the latch, also while RESETTING is set. -/
def execIndexErrorClear (value : BitVec 32) (s : State) : Host.Outcome State Fault Refusal :=
  if value.getLsbD 2 then .next (s.modRegs fun r => { r with indexError := none }) else .next s

/-- A write to the base registers, by offset; every other offset ignores the write (R180, R184). -/
def Regs.writeBase (r : Regs) (offset : BitVec 8) (width : Width) (value : BitVec 64) : Regs :=
  match offset.toNat / 8 * 8 with
  | 0x18 => { r with ctlqRing := mergeWrite r.ctlqRing offset width value &&& ringFields }
  | 0x20 => { r with ctlqCpl := mergeWrite r.ctlqCpl offset width value &&& ringFields }
  | 0x28 => { r with profileBase := mergeWrite r.profileBase offset width value &&& baseFields }
  | _ => r

/-- REGISTER_WRITE (R184, R180): stored at any time, with no further effect until the next enable. -/
def execRegisterWrite (offset : BitVec 8) (width : Width) (value : BitVec 64) (s : State) :
    Host.Outcome State Fault Refusal :=
  .next (s.modRegs fun r => r.writeBase offset width value)

/-! ### INDEX_PORT -/

/-- A failed check (R138): the latch takes the kind and queue if it is clear, and a notice is owed. -/
def State.indexErrorSeen (s : State) (kind : IndexErrorKind) (queue : BitVec 4) : State :=
  if s.regs.indexError.isSome then s
  else (s.modRegs fun r => { r with indexError := some (kind, queue) }).oweNotice

/-- The queue a queue field names: 0 to 8. -/
def queueNamed (queue : BitVec 4) : Option QueueId :=
  if queue.toNat ≤ 8 then some (Fin.ofNat 9 queue.toNat) else none

/-- An INDEX_PORT write checked in the order of R136: the queue it reaches, or the error kind. `inRange` is check 3, which
fails with `kind`. -/
def State.indexCheck (s : State) (queue : BitVec 4) (inRange : QueueRow → Bool) (kind : IndexErrorKind) :
    Except IndexErrorKind QueueId :=
  match queueNamed queue with
  | none => .error .badQueue
  | some q =>
    if (s.queue q).state = .disabled then .error .queueState
    else if inRange (s.queue q) then .ok q
    else .error kind

/-- What follows a new submission tail (R136): the Control Unit tests for a record, leaving READ_FAILED first (R164), or
the Record Fetcher makes an evaluation (R150). -/
def State.tailTaken (s : State) (q : QueueId) : State :=
  if q = 0 then
    (if s.control.state = .readFailed then s.modControl fun k => { k with state := .idle } else s).controlTest
  else s.fetchEvaluate

/-- SUB_TAIL (R136). -/
def execSubTail (queue : BitVec 4) (value : BitVec 16) (s : State) : Host.Outcome State Fault Refusal :=
  if s.regs.resetting then .next s
  else
    match s.indexCheck queue (fun r => decide (value.toNat < r.subSize)) .tailRange with
    | .error kind => .next (s.indexErrorSeen kind queue)
    | .ok q => .next ((s.modQueue q fun r => { r with subTail := value.toNat }).tailTaken q)

/-- The entries a completion head frees: its distance from the old head (R137). -/
def QueueRow.freedBy (r : QueueRow) (head : Nat) : Nat := (head + r.cplSize - r.cplHead) % r.cplSize

/-- Check 3 of a CPL_HEAD write (R136, R137). -/
def QueueRow.headOk (r : QueueRow) (head : Nat) : Bool := decide (head < r.cplSize ∧ r.freedBy head ≤ r.written)

/-- The requester of a refused reservation asks again (R140): the Control Unit from RESERVING (log 31), or the Record
Fetcher. -/
def State.roomMade (s : State) (q : QueueId) : State :=
  if q = 0 then
    if s.control.state = .reserving then (s.modControl fun k => { k with state := .idle }).controlTest else s
  else s.fetchEvaluate

/-- CPL_HEAD (R137). -/
def execCplHead (queue : BitVec 4) (value : BitVec 16) (s : State) : Host.Outcome State Fault Refusal :=
  if s.regs.resetting then .next s
  else
    match s.indexCheck queue (fun r => r.headOk value.toNat) .headRange with
    | .error kind => .next (s.indexErrorSeen kind queue)
    | .ok q =>
      let t := s.modQueue q fun r => { r with cplHead := value.toNat }
      if 0 < (s.queue q).freedBy value.toNat ∧ (s.queue q).refused then .next (t.roomMade q) else .next t

end Sys2Proof.Machine
end

