-- ==== Sys2Proof/Machine/Resets.lean ====
section
/-! DEFINITION. The three resets of the part and the two ends of a reset pulse (R25, R64 to R67, R102, R115, R129, R148,
R157, R162, R179, R182, 11.1). -/

namespace Sys2Proof.Machine

/-- POWER_ON_RESET (R66, R25): every block at its power-on values, TRESET asserted for the next 100 µs. The clock and the
commands still to come are no state of a block. -/
def execPowerOnReset (s : State) : Host.Outcome State Fault Refusal :=
  .next
    { State.reset with
      clock := s.clock, pending := s.pending
      bus := { state := .resetPulse (s.now + 100) true, pins := { treset := true } } }

/-- LINK_RESET (R25, R66): every block at its link-reset values, an access or a pulse in progress cut without a report. -/
def execLinkReset (s : State) : Host.Outcome State Fault Refusal :=
  .next { clock := s.clock, pending := s.pending }

/-- The Host Port at the first step of a function reset: every write not yet issued is dropped (R162). -/
def HostPort.dropWrites (h : HostPort) : HostPort := { h with issueQueue := [], held := [] }

/-- RESET (R182): RESETTING sets, every block enters the first step of its function reset, and IRQ_ENABLE takes the value
written (R181; log 23). Ignored while RESETTING is set, and with bit 1 clear. -/
def execReset (value : BitVec 32) (s : State) : Host.Outcome State Fault Refusal :=
  if s.regs.resetting || !value.getLsbD 1 then .next s
  else
    .next ((s.modRegs fun r => { r with resetting := true, irqEnable := value.getLsbD 2 }).modPort HostPort.dropWrites)

/-- A tag after a function reset: one in flight is STALE from now on (R162). -/
def Tag.afterReset (t : Tag) (now : Nat) : Tag :=
  match t with
  | .inFlight _ _ => .stale now
  | t => t

/-- The registers after a function reset: the three base registers keep their values, every other field clears (R182). -/
def Regs.afterReset (r : Regs) : Regs :=
  { ctlqRing := r.ctlqRing, ctlqCpl := r.ctlqCpl, profileBase := r.profileBase }

/-- An access is in progress. -/
def State.inAccess (s : State) : Bool :=
  match s.bus.state with
  | .access _ => true
  | _ => false

/-- Every block at its function-reset values (R182). -/
def State.functionReset (s : State) : State :=
  { clock := s.clock, pending := s.pending, regs := s.regs.afterReset
    port := { tags := Vector.ofFn fun i => (s.port.tags[i]).afterReset s.now } }

/-- FUNCTION_RESET_COMPLETE (R182): the second step, taken when no access is in progress. Queue 0 is DISABLED after it, so
the tests that the clearing of RESETTING brings find nothing to begin. -/
def execFunctionResetComplete (s : State) : Host.Outcome State Fault Refusal :=
  if s.regs.resetting && !s.inAccess then .next s.functionReset else .next s

/-! ### Ends of pulses -/

/-- TRESET is deasserted and the bus is IDLE. -/
def BusCtl.pulseOver (b : BusCtl) : BusCtl :=
  { b with state := .idle, attachedNow := 0, pins := { b.pins with treset := false } }

/-- After a pulse the pending one begins (R65, R66); while RESETTING is set it does not (R67). -/
def State.nextPulse (s : State) : State :=
  if s.bus.pulsePending && !s.regs.resetting then s.pulseBegin else s

/-- What the end of an RSTT pulse brings (R65, R83, R99, R176): targets NORMAL, profiles invalidated, the attached RSTTs
completed while the bus is still in RESET_PULSE (log 17), then the next pulse or IDLE. -/
def State.pulseEnds (s : State) (due : Nat) : State :=
  let n := s.bus.attachedNow
  let s := (s.untilUs due).modBus fun b => { b with attachedNow := 0, pins := { b.pins with treset := false } }
  let s := ({ s with targets := Vector.replicate 16 none } : State).invalidateAll
  let split := splitRstt n s.control.pendingList
  ((s.pendingDone split.1 split.2).modBus BusCtl.pulseOver).nextPulse.settle

/-- PULSE_END (R65): the end time of an RSTT pulse is reached. -/
def execPulseEnd (s : State) : Host.Outcome State Fault Refusal :=
  match s.bus.state with
  | .resetPulse due false => .next (s.pulseEnds due)
  | _ => .next s

/-- POWER_ON_PULSE_END (R66): TRESET is deasserted and every profile invalidated, with no report and no change of a
target's state. -/
def execPowerOnPulseEnd (s : State) : Host.Outcome State Fault Refusal :=
  match s.bus.state with
  | .resetPulse due true => .next ((((s.untilUs due).invalidateAll).modBus BusCtl.pulseOver).nextPulse.settle)
  | _ => .next s

end Sys2Proof.Machine
end

