-- ==== Sys2Proof/Machine/Dispatch.lean ====
section
/-! DEFINITION. One arm for each command: what it does to everything but the queue of commands. -/

namespace Sys2Proof.Machine

/-- The effect of a command. -/
def exec (i : Instr) (s : State) : Host.Outcome State Fault Refusal :=
  match i with
  | .powerOnReset => Sys2Proof.Machine.execPowerOnReset s
  | .linkReset => Sys2Proof.Machine.execLinkReset s
  | .enable value => Sys2Proof.Machine.execEnable value s
  | .reset value => Sys2Proof.Machine.execReset value s
  | .functionResetComplete => Sys2Proof.Machine.execFunctionResetComplete s
  | .irqEnable value => Sys2Proof.Machine.execIrqEnable value s
  | .indexErrorClear value => Sys2Proof.Machine.execIndexErrorClear value s
  | .registerWrite offset width value => Sys2Proof.Machine.execRegisterWrite offset width value s
  | .subTail queue value => Sys2Proof.Machine.execSubTail queue value s
  | .cplHead queue value => Sys2Proof.Machine.execCplHead queue value s
  | .tagGrant => Sys2Proof.Machine.execTagGrant s
  | .headerSlotReturn tag response => Sys2Proof.Machine.execHeaderSlotReturn tag response s
  | .extensionSlotReturn tag response => Sys2Proof.Machine.execExtensionSlotReturn tag response s
  | .profileLoadReturn tag response => Sys2Proof.Machine.execProfileLoadReturn tag response s
  | .dataReadReturn tag response => Sys2Proof.Machine.execDataReadReturn tag response s
  | .hostReadTimeout tag => Sys2Proof.Machine.execHostReadTimeout tag s
  | .staleTagExpiry tag => Sys2Proof.Machine.execStaleTagExpiry tag s
  | .staleResponse tag => Sys2Proof.Machine.execStaleResponse tag s
  | .busGrant => Sys2Proof.Machine.execBusGrant s
  | .turnOffWaitEnd => Sys2Proof.Machine.execTurnOffWaitEnd s
  | .openPhaseEnd hold response => Sys2Proof.Machine.execOpenPhaseEnd hold response s
  | .beatEnd hold flow lines => Sys2Proof.Machine.execBeatEnd hold flow lines s
  | .holdDrop response flow lines => Sys2Proof.Machine.execHoldDrop response flow lines s
  | .holdTimeout => Sys2Proof.Machine.execHoldTimeout s
  | .retryTimerDue context => Sys2Proof.Machine.execRetryTimerDue context s
  | .pollTimerDue context => Sys2Proof.Machine.execPollTimerDue context s
  | .flowTimerDue context => Sys2Proof.Machine.execFlowTimerDue context s
  | .completionHandoff context => Sys2Proof.Machine.execCompletionHandoff context s
  | .entryIssued => Sys2Proof.Machine.execEntryIssued s
  | .dataWriteIssued => Sys2Proof.Machine.execDataWriteIssued s
  | .delayTimerDue queue => Sys2Proof.Machine.execDelayTimerDue queue s
  | .controlReadError => Sys2Proof.Machine.execControlReadError s
  | .unknownCommand slot => Sys2Proof.Machine.execUnknownCommand slot s
  | .cfgq slot => Sys2Proof.Machine.execCfgq slot s
  | .enq slot => Sys2Proof.Machine.execEnq slot s
  | .disq slot => Sys2Proof.Machine.execDisq slot s
  | .abt slot => Sys2Proof.Machine.execAbt slot s
  | .invp slot => Sys2Proof.Machine.execInvp slot s
  | .rlst slot => Sys2Proof.Machine.execRlst slot s
  | .rstt slot => Sys2Proof.Machine.execRstt slot s
  | .qryq slot => Sys2Proof.Machine.execQryq slot s
  | .mark slot => Sys2Proof.Machine.execMark slot s
  | .pulseEnd => Sys2Proof.Machine.execPulseEnd s
  | .powerOnPulseEnd => Sys2Proof.Machine.execPowerOnPulseEnd s
  | .messageIssued => Sys2Proof.Machine.execMessageIssued s

end Sys2Proof.Machine
end

