-- ==== Sys2Proof/Safety.lean ====
section
/-! DEFINITION. What a safe state is: the laws that every command keeps; and the views of a state by which statements say
what a command leaves alone. -/

namespace Sys2Proof.Machine

/-- The staging memory is in its canonical form, so that equal memories are equal data. -/
def State.MemoryCanonical (s : State) : Prop := s.pool.memory.wf = true

/-- The bus is in RESET_PULSE (R44). -/
def BusState.isPulse (b : BusState) : Bool :=
  match b with
  | .resetPulse _ _ => true
  | _ => false

/-- TRESET is asserted in RESET_PULSE and at no other time (R64 to R66). -/
def State.TresetInPulse (s : State) : Prop := s.bus.pins.treset = s.bus.state.isPulse

/-- The issue queue holds at most 64 writes, and its blocks hold a write only while all 64 places are taken (R161). -/
def State.IssueQueueBounded (s : State) : Prop :=
  s.port.issueQueue.length ≤ 64 ∧ (s.port.held ≠ [] → s.port.issueQueue.length = 64)

/-- The reserved bits of the three base registers read as 0 (R184). -/
def State.BasesAligned (s : State) : Prop :=
  s.regs.ctlqRing &&& ringFields = s.regs.ctlqRing ∧ s.regs.ctlqCpl &&& ringFields = s.regs.ctlqCpl
    ∧ s.regs.profileBase &&& baseFields = s.regs.profileBase

/-- While RESETTING is set no posted write waits (R162). -/
def State.QuietWhileResetting (s : State) : Prop :=
  s.regs.resetting = true → s.port.issueQueue = [] ∧ s.port.held = []

/-- The pending control list never holds more than four entries (R166). -/
def State.PendingListBounded (s : State) : Prop := s.control.pendingList.length ≤ 4

/-- No context holds more than two chunks, and every chunk is free or held by exactly one context (R117). -/
def State.ChunksShared (s : State) : Prop :=
  (∀ c, (s.chunksOf c).length ≤ 2) ∧ ∀ k, s.pool.chunks[k] = none ∨ ∃ c, ∀ d, k ∈ s.chunksOf d ↔ d = c

/-- On every queue that is not DISABLED the written entries and the reservations together are at most the completion
ring's size less one (R139). -/
def State.ReservationsFit (s : State) : Prop :=
  ∀ q, (s.queue q).state ≠ .disabled → (s.queue q).written + (s.queue q).reserved ≤ (s.queue q).cplSize - 1

/-- A safe state: every law above holds. -/
structure State.Safe (s : State) : Prop where
  memory : s.MemoryCanonical
  treset : s.TresetInPulse
  issueQueue : s.IssueQueueBounded
  bases : s.BasesAligned
  quiet : s.QuietWhileResetting
  pendingList : s.PendingListBounded

/-! ### Views of a state -/

/-- The state no preparation, claim, lock grant, completion or lookup touches: time, registers, queue rows, fetches, bus,
targets, Control Unit, commands, staging bytes, tags, and posted writes. -/
structure Outside where
  clock : Nat
  regs : Regs
  queues : Vector QueueRow 9
  fetcher : Fetcher
  seqCounter : BitVec 32
  bus : BusCtl
  targets : Vector TargetRow 16
  control : ControlUnit
  pending : List Instr
  memory : Memory
  tags : Vector Tag 8
  classPtr : Option ReqClass
  fetcherReads : List ReadReq
  controlReads : List ReadReq
  issueQueue : List PostedWrite
  held : List PostedWrite

/-- The part of a state outside the contexts, chunks, locks and cache. -/
def State.outside (s : State) : Outside where
  clock := s.clock
  regs := s.regs
  queues := s.queues
  fetcher := s.fetcher
  seqCounter := s.seqCounter
  bus := s.bus
  targets := s.targets
  control := s.control
  pending := s.pending
  memory := s.pool.memory
  tags := s.port.tags
  classPtr := s.port.classPtr
  fetcherReads := s.port.fetcherReads
  controlReads := s.port.controlReads
  issueQueue := s.port.issueQueue
  held := s.port.held

/-- The posted writes handed and not yet issued, in the order they will be issued (R161). -/
def State.posted (s : State) : List PostedWrite := s.port.issueQueue ++ s.port.held

/-- Every block at the values its table gives after every reset (R1, R44, R79, R89, R103, R116, R130, R149, R158, R163,
R182): all but the bus state, the pins, the tags and the base registers, which the three resets leave differently. -/
def State.BlocksReset (s : State) : Prop :=
  s.contexts = Vector.replicate 16 {} ∧ s.seqCounter = 0 ∧ s.cache = {} ∧ s.targets = Vector.replicate 16 none
    ∧ s.locks = {} ∧ s.pool.chunks = Vector.replicate 24 none ∧ s.pool.waiters = [] ∧ s.pool.refused = []
    ∧ s.queues = Vector.replicate 9 {} ∧ s.fetcher = {} ∧ s.control = {} ∧ s.posted = [] ∧ s.port.classPtr = none
    ∧ s.port.fetcherReads = [] ∧ s.port.controlReads = [] ∧ s.port.loaderReads = [] ∧ s.port.moverReads = []
    ∧ s.bus.window = none ∧ s.bus.closePending = false ∧ s.bus.lastQueue = 0 ∧ s.bus.queueRun = 0
    ∧ s.bus.localityRun = 0 ∧ s.bus.turnOff = none ∧ s.bus.pulsePending = false ∧ s.bus.attachedNow = 0
    ∧ s.bus.attachedNext = 0 ∧ s.regs.enabled = false ∧ s.regs.irqEnable = false ∧ s.regs.resetting = false
    ∧ s.regs.indexError = none ∧ s.regs.haltedMask = 0

/-- A row's ring sizes are not 0, and while the queue is not DISABLED its four indices lie in its rings (R130). -/
def QueueRow.InRange (r : QueueRow) : Prop :=
  0 < r.subSize ∧ 0 < r.cplSize ∧
    (r.state ≠ .disabled → r.subHead < r.subSize ∧ r.subTail < r.subSize ∧ r.cplHead < r.cplSize ∧ r.cplTail < r.cplSize)

/-- Every row's indices lie in its rings. -/
def State.RingsInRange (s : State) : Prop := ∀ q, (s.queue q).InRange

/-- A read in flight under some tag has a reference that satisfies `p` (R158). -/
def State.ReadsInFlight (s : State) (p : ReadRef → Bool) : Prop :=
  ∃ (i : TagId) (r : ReadReq) (issued : Nat), s.port.tags[i] = .inFlight r issued ∧ p r.ref = true

/-- A posted write handed and not yet issued satisfies `p` (R161). -/
def State.OwesWrite (s : State) (p : PostedWrite → Bool) : Prop := ∃ w ∈ s.posted, p w = true

/-- The read in flight under tag `i` is the one `ref` names, and its response may be handed on (R160). -/
def State.Awaits (s : State) (i : TagId) (r : ReadReq) : Prop := s.inFlight i = some r ∧ s.regs.resetting = false

/-- The control slot read is in flight under tag `i`, and `slot` is a record of 64 bytes whose command byte is `code`. -/
def State.SlotReturns (s : State) (i : TagId) (slot : List Byte) (code : Byte) : Prop :=
  s.controlTag = some i ∧ slot.length = 64 ∧ byteAt slot 0 = code ∧ s.regs.resetting = false

/-- A control record has been consumed between `s` and `t`, and of its command's own effect nothing else is seen: its tag
is FREE, queue 0's head has advanced, and time, commands, registers, targets, fetches and staging bytes stand (R164). -/
def State.ConsumesSlot (s t : State) (i : TagId) : Prop :=
  (∀ j : TagId, t.port.tags[j] = if j = i then Tag.free else s.port.tags[j])
    ∧ (t.queue 0).subHead = ((s.queue 0).subHead + 1) % (s.queue 0).subSize
    ∧ t.clock = s.clock ∧ t.pending = s.pending ∧ t.pool.memory = s.pool.memory
    ∧ t.regs.enabled = s.regs.enabled ∧ t.regs.irqEnable = s.regs.irqEnable ∧ t.regs.indexError = s.regs.indexError
    ∧ t.regs.profileTable = s.regs.profileTable

/-- A control completion with entry `e` has been handed between `s` and `t` (R141, R165): it joins the posted writes with
queue 0's place and phase, and queue 0's completion tail advances. -/
def State.CompletesControl (s t : State) (e : Entry) : Prop :=
  t.posted = s.posted ++ [.entry 0 none false
      ((s.queue 0).cplBase + BitVec.ofNat 64 (32 * (s.queue 0).cplTail)) (s.queue 0).phase e]
    ∧ (t.queue 0).cplTail = ((s.queue 0).cplTail + 1) % (s.queue 0).cplSize

/-- The completion entry a posted write carries, with its queue. -/
def PostedWrite.entryOf : PostedWrite → Option (QueueId × Entry)
  | .entry q _ _ _ _ e => some (q, e)
  | _ => none

/-- The completion entries handed and not yet issued, in the order they will be issued. -/
def State.postedEntries (s : State) : List (QueueId × Entry) := s.posted.filterMap PostedWrite.entryOf

/-- Between `s` and `t` no more has changed than the consuming of a control record and a control completion change: queue
0's row, the Control Unit's state and command in hand, and of the Host Port the tags, the control slot's read and the
posted writes. -/
def State.KeepsAllButControl (s t : State) : Prop :=
  t = { s with queues := t.queues, port := t.port, control := t.control }
    ∧ (∀ q, q ≠ 0 → t.queue q = s.queue q)
    ∧ t.port = { s.port with
        tags := t.port.tags, controlReads := t.port.controlReads, issueQueue := t.port.issueQueue, held := t.port.held }
    ∧ t.control.pendingList = s.control.pendingList

/-- No preparation has a step to take. -/
def State.Settled (s : State) : Prop := ∀ c, (s.ctx c).runnable = false

/-- The byte at offset `i` of segment `g` that a write access of op `o` moves (R34, R37, R45, R50): of the fill pattern in the
op's phase, of the inline data, or of the context's chunk. -/
def State.IsWriteByte (s : State) (c : CtxId) (o : Op) (g : Segment) (i : Nat) (b : Byte) : Prop :=
  (o.kind = .fill → b = o.data.extractLsb' (8 * ((g.base + g.place + i) % 8)) 8)
    ∧ (o.kind = .write → o.inline = true → b = o.data.extractLsb' (8 * (g.base + g.place + i)) 8)
    ∧ ((o.kind = .write ∧ o.inline = false) ∨ o.kind = .copy → ∀ k, s.chunkWith c .current = some k →
        b = s.pool.memory.read (256 * k.val + (g.place + i)))

/-- The pins show the strobe of the beat after those done of access `a`, for op `o` and segment `g` (R50): the target's
select alone, the beat's address, the strobe of the direction, every lane of the port or those of a POLL's own bytes, and
on a write beat the segment's bytes, each on the lane of its own target address. -/
def State.StrobesBeat (t : State) (a : Access) (o : Op) (g : Segment) : Prop :=
  let p := t.bus.pins
  let width := a.snapshot.width
  let address := if a.snapshot.cls = 0 then a.start + BitVec.ofNat 24 (a.beatsDone * width) else a.start
  let lane (j : Nat) := (address.toNat + j) % width
  p.tsel = BitVec.ofNat 16 (2 ^ a.target.val) ∧ p.ta = address
    ∧ (p.trd = true ↔ a.direction = .read) ∧ (p.twr = true ↔ a.direction = .write)
    ∧ (∀ l, l < 4 → (p.tbe.getLsbD l = true ↔
        if o.kind = .poll then ∃ j, j < o.length ∧ j < width ∧ l = lane j else l < width))
    ∧ (a.direction = .read → p.driven = [])
    ∧ (a.direction = .write → o.kind ≠ .poll → p.driven.map (·.1) = List.range width
        ∧ ∀ j b, j < width → (lane j, b) ∈ p.driven → a.beatsDone * width + j < g.len →
            t.IsWriteByte a.owner o g (a.beatsDone * width + j) b)

/-- The commands that leave every lock row held as it is (R106, R108): all but the resets and the issue of an entry. -/
def keepsLocks : Instr → Bool
  | .powerOnReset | .linkReset | .functionResetComplete | .entryIssued => false
  | _ => true

end Sys2Proof.Machine
end

