-- ==== Sys2Proof/Certificates/Slice0/Obligations.lean ====
section
/-! DEFINITION. The statements for the provers. A statement that begins with a command's meaning says that it answers a next
state, and what that state holds. -/

open Sys2Proof Sys2Proof.Machine

/-! ### Steps -/

/-- A step with a command at the front of the queue is that command's effect on the state with the queue's rest; with
no command waiting a step is one target-bus clock (the model's choice, log 2). -/
def Obligations.StepRunsFrontOrTicks : Prop :=
  (∀ (c : Instr) (rest : List Instr) (s : State),
      step { s with pending := c :: rest } = exec c { s with pending := rest })
  ∧ (∀ s : State, s.pending = [] → step s = .next { s with clock := s.clock + 1 })

/-- The model's choice (logs 1 and 3): every command answers a next state in every state, also where its event cannot occur
(log 1). No command turns the clock back, since due events move it on (log 3), and none changes the commands that wait. -/
def Obligations.EveryCommandAnswersNext : Prop :=
  ∀ (c : Instr) (s : State), ∃ t, exec c s = .next t ∧ s.clock ≤ t.clock ∧ t.pending = s.pending

/-! ### Resets (R25, R66, R182) -/

/-- Power-on reset puts every block at its reset values with the bus in a pulse of 100 µs and TRESET asserted; link
reset does so with the bus IDLE and every select, strobe and TRESET inactive. A write of RESET 1 sets RESETTING, takes
IRQ_ENABLE (the model's reading, log 23) and drops every posted write not yet issued, nothing else; while RESETTING is
set it is ignored. The second step, with no access in progress, puts every block at its reset values with the bus
IDLE, the three base registers kept, every tag in flight STALE from now on, and RESETTING clear; until the access in
progress has ended it changes nothing (R182). -/
def Obligations.ResetsClearBlocks : Prop :=
  (∀ s : State, ∃ t, exec .powerOnReset s = .next t ∧ t.BlocksReset
      ∧ t.bus.state = .resetPulse (s.now + 100) true ∧ t.bus.pins.treset = true ∧ t.bus.pins.tsel = 0
      ∧ t.bus.pins.trd = false ∧ t.bus.pins.twr = false
      ∧ t.port.tags = Vector.replicate 8 .free
      ∧ t.regs.ctlqRing = 0 ∧ t.regs.ctlqCpl = 0 ∧ t.regs.profileBase = 0
      ∧ t.clock = s.clock ∧ t.pending = s.pending)
  ∧ (∀ s : State, ∃ t, exec .linkReset s = .next t ∧ t.BlocksReset
      ∧ t.bus.state = .idle ∧ t.bus.pins.tsel = 0 ∧ t.bus.pins.trd = false ∧ t.bus.pins.twr = false
      ∧ t.bus.pins.treset = false ∧ t.port.tags = Vector.replicate 8 .free
      ∧ t.regs.ctlqRing = 0 ∧ t.regs.ctlqCpl = 0 ∧ t.regs.profileBase = 0
      ∧ t.clock = s.clock ∧ t.pending = s.pending)
  ∧ (∀ (v : BitVec 32) (s : State), v.getLsbD 1 = true →
      (s.regs.resetting = false →
        exec (.reset v) s = .next { s with
          regs := { s.regs with resetting := true, irqEnable := v.getLsbD 2 }
          port := { s.port with issueQueue := [], held := [] } })
      ∧ (s.regs.resetting = true → exec (.reset v) s = .next s))
  ∧ (∀ s : State, s.regs.resetting = true → s.inAccess = false →
      ∃ t, exec .functionResetComplete s = .next t ∧ t.BlocksReset
        ∧ t.bus.state = .idle ∧ t.bus.pins.tsel = 0 ∧ t.bus.pins.treset = false
        ∧ t.regs.ctlqRing = s.regs.ctlqRing ∧ t.regs.ctlqCpl = s.regs.ctlqCpl
        ∧ t.regs.profileBase = s.regs.profileBase
        ∧ (∀ i : TagId, t.port.tags[i] = match s.port.tags[i] with
            | .inFlight _ _ => Tag.stale s.now
            | .stale n => Tag.stale n
            | .free => Tag.free)
        ∧ t.clock = s.clock ∧ t.pending = s.pending)
  ∧ (∀ s : State, s.inAccess = true → exec .functionResetComplete s = .next s)

/-- The state right after reset meets every law that a statement below says each step keeps, and has every block at
its reset values. -/
def Obligations.ResetStateIsSafe : Prop :=
  State.reset.Safe ∧ State.reset.RingsInRange ∧ State.reset.ReservationsFit ∧ State.reset.ChunksShared ∧ State.reset.BlocksReset
    ∧ State.reset.bus.state = .resetPulse 100 true ∧ State.reset.bus.pins.treset = true
    ∧ State.reset.port.tags = Vector.replicate 8 .free ∧ State.reset.pending = []

/-! ### Laws that every step keeps -/

/-- Every step keeps the list that stands for the staging memory in its canonical form: addresses strictly rising and no
byte 0 listed. The form, and that an unlisted byte reads 0, are the model's own representation (log 11). -/
def Obligations.StepKeepsMemoryCanonical : Prop :=
  ∀ s t : State, s.MemoryCanonical → step s = .next t → t.MemoryCanonical

/-- After every step TRESET is asserted exactly when the bus is in RESET_PULSE (R64 to R66). -/
def Obligations.StepKeepsTresetInPulse : Prop :=
  ∀ s t : State, s.TresetInPulse → step s = .next t → t.TresetInPulse

/-- Every step keeps the issue queue within 64 places, with a write held by its block only while all are taken (R161). -/
def Obligations.StepKeepsIssueQueueBounded : Prop :=
  ∀ s t : State, s.IssueQueueBounded → step s = .next t → t.IssueQueueBounded

/-- While RESETTING is set no posted write is handed: none waits after any step if none waited before (R162, R182). -/
def Obligations.StepKeepsQuietWhileResetting : Prop :=
  ∀ s t : State, s.QuietWhileResetting → step s = .next t → t.QuietWhileResetting

/-- Every step keeps the reserved bits of the three base registers 0, so every stored base is 4 KiB aligned (R184). -/
def Obligations.StepKeepsBasesAligned : Prop :=
  ∀ s t : State, s.BasesAligned → step s = .next t → t.BasesAligned

/-- Every step keeps the pending control list within four entries (R166). -/
def Obligations.StepKeepsPendingListBounded : Prop :=
  ∀ s t : State, s.PendingListBounded → step s = .next t → t.PendingListBounded

/-- Every step keeps the four indices of each queue that is not DISABLED within its rings (R130). -/
def Obligations.StepKeepsRingsInRange : Prop :=
  ∀ s t : State, s.RingsInRange → step s = .next t → t.RingsInRange

/-- Every step keeps the law of the staging chunks: each chunk is free or held by exactly one context, and no context
holds more than two (R117). -/
def Obligations.StepKeepsChunksShared : Prop :=
  ∀ s t : State, s.ChunksShared → step s = .next t → t.ChunksShared

/-- A held lock row stays with its holder under every command but a reset and the issue of an entry (R106, R108, R114). -/
def Obligations.LockHeldUntilEntryIssued : Prop :=
  ∀ (c : Instr) (s s' : State) (t : TargetId) (h : CtxId), keepsLocks c = true → exec c s = .next s' →
    s.locks.rows[t] = some h → s'.locks.rows[t] = some h

/-- An access begins only by a grant, to a NORMAL target that no other context has locked, with no pulse pending and
RESETTING clear (R59, R80). -/
def Obligations.AccessBeginsOnlyWhereAllowed : Prop :=
  ∀ (c : Instr) (s t : State) (a : Access), s.inAccess = false → exec c s = .next t → t.bus.state = .access a →
    c = .busGrant ∧ s.targets[a.target] = none ∧ (s.locks.rows[a.target] = none ∨ s.locks.rows[a.target] = some a.owner)
      ∧ s.bus.state = .idle ∧ s.bus.pulsePending = false ∧ s.regs.resetting = false

/-! ### Locks, chunks and ops -/

/-- A lock set is granted whole (R104 to R107). The four conditions of a grant, for every target of the set: its row
is free, no older member names it, and no other context holds a chunk for it or accesses it. An evaluation: the
members that stay keep their order, and none of them meets the conditions; a member that has left met them, against every
member that stood before it in the list, and is PREPARING and holds every target of its set; no other row changes. A joining context stands behind every
older member and before every younger one, and an evaluation is made. While RESETTING is set no evaluation is made. -/
def Obligations.LockSetsGrantedWhole : Prop :=
  (∀ (s : State) (olderMembers : List LockWaiter) (w : LockWaiter), s.lockPasses olderMembers w = true ↔
      ∀ t : TargetId, w.set.getLsbD t.val = true →
        s.locks.rows[t] = none ∧ (∀ v ∈ olderMembers, v.set.getLsbD t.val = false)
          ∧ (∀ (k : ChunkId) (h : ChunkHold), s.pool.chunks[k] = some h → t ∈ h.targets → h.context = w.context)
          ∧ (∀ a, s.bus.state = .access a → a.target = t → a.owner = w.context))
  ∧ (∀ s : State, s.regs.resetting = false →
      let t := s.lockEvaluate
      t.locks.waiters.Sublist s.locks.waiters
        ∧ (∀ before w behind, t.locks.waiters = before ++ w :: behind → t.lockPasses before w = false)
        ∧ (∀ before w behind, s.locks.waiters = before ++ w :: behind → w ∉ t.locks.waiters →
            s.lockPasses before w = true ∧ (t.ctx w.context).state = .preparing
              ∧ ∀ j : TargetId, w.set.getLsbD j.val = true → t.locks.rows[j] = some w.context)
        ∧ (∀ j : TargetId, t.locks.rows[j] ≠ s.locks.rows[j] → s.locks.rows[j] = none
            ∧ ∃ w ∈ s.locks.waiters, w.set.getLsbD j.val = true ∧ t.locks.rows[j] = some w.context)
        ∧ t.outside = s.outside)
  ∧ (∀ s : State, s.regs.resetting = true → s.lockEvaluate = s)
  ∧ (∀ (l : List LockWaiter) (w : LockWaiter) (b : BitVec 32), (∀ v ∈ w :: l, (v.seq - b).toNat < 2 ^ 31) →
      l.Pairwise (fun u v => older u.seq v.seq = true) →
      ∃ before behind, l = before ++ behind ∧ insertWaiter w l = before ++ w :: behind
        ∧ (∀ v ∈ before, older w.seq v.seq = false) ∧ (∀ v ∈ behind, older w.seq v.seq = true))
  ∧ (∀ (s : State) (c : CtxId), s.lockJoin c =
      State.lockEvaluate { s with
        locks := { s.locks with
          waiters := insertWaiter { context := c, seq := (s.ctx c).seq, set := (s.ctx c).lockMask } s.locks.waiters }
        contexts := s.contexts.set c { s.ctx c with state := .lockWait } })

/-- What the Staging Pool answers. A first claim (R118): a context that holds two chunks waits; a claim the Lock Table
refuses enters the lock-refused set; with no waiter and a free chunk the lowest is granted with role current, and a WRITE
from host has its reads listed; else the context joins the waiter list at its tail. A freed chunk is offered to the
waiters in order: those the Lock Table now refuses enter the refused set, the first it allows is granted (R119). When the
Lock Table tells that an answer may have turned to yes, the refused members whose answer is yes leave the set and claim
again, in ascending sequence order, and the others stay in it (R120); one whose copy was discarded meanwhile does so too,
and returns to step 2 after its grant (the model's choice between R118 and R120, log 38). A second claim is granted the
lowest free chunk with role staged when the context holds one chunk, none waits and the Lock Table allows it: the staged
segment begins where the current one ends and is cut with the same profiles, and a WRITE from host has its reads listed;
else nothing changes (R121). A segment's reads are its host range, cut where it crosses a 4 KiB page (R124; that a host
address wraps is the model's choice, log 24). -/
def Obligations.ChunkClaimsAnswered : Prop :=
  (∀ (s : State) (c : CtxId) (o : Op) (g : Segment), (s.ctx c).op = some o → (s.ctx c).segment = some g →
      let allowed := ∀ t ∈ o.targets, s.locks.rows[t] = some c
        ∨ (s.locks.rows[t] = none ∧ ∀ w ∈ s.locks.waiters, w.set.getLsbD t.val = false)
      let lowest (k : ChunkId) := s.pool.chunks[k] = none ∧ ∀ j : ChunkId, j < k → s.pool.chunks[j] ≠ none
      let waits (p : Pool) := State.setPrep { s with pool := p } c .waitChunk
      (2 ≤ (s.chunksOf c).length → s.claimFirst c = s.setPrep c .waitTwo)
      ∧ ((s.chunksOf c).length < 2 → ¬ allowed →
          s.claimFirst c = waits { s.pool with refused := s.pool.refused ++ [{ context := c, targets := o.targets }] })
      ∧ ((s.chunksOf c).length < 2 → allowed → (s.pool.waiters ≠ [] ∨ ∀ k : ChunkId, s.pool.chunks[k] ≠ none) →
          s.claimFirst c = waits { s.pool with waiters := s.pool.waiters ++ [{ context := c, targets := o.targets }] })
      ∧ ((s.chunksOf c).length < 2 → allowed → s.pool.waiters = [] → ∀ k, lowest k →
          let t := s.claimFirst c
          t.pool = { s.pool with chunks := s.pool.chunks.set k (some
              { context := c, role := .current, targets := o.targets, length := g.len }) }
            ∧ (t.ctx c).prep = .run .data ∧ (∀ d, d ≠ c → t.ctx d = s.ctx d)
            ∧ (o.readsHost = true → t.port = { s.port with moverReads := s.port.moverReads ++ segmentReads c k o g }
                ∧ (t.ctx c).segment = some { g with hostRead := .pending, readError := false, reread := false })
            ∧ (o.readsHost = false → t.port = s.port ∧ (t.ctx c).segment = some g)))
  ∧ (∀ (s : State) (k : ChunkId) (no : List Claim),
      (∀ m ∈ no, ∃ t ∈ m.targets, s.mayClaim m.context t = false) →
      s.offer k no = { s with pool := { s.pool with waiters := [], refused := s.pool.refused ++ no } }
      ∧ ∀ (m : Claim) (rest : List Claim) (o : Op) (g : Segment), (∀ t ∈ m.targets, s.mayClaim m.context t = true) →
          (s.ctx m.context).op = some o → (s.ctx m.context).segment = some g → (s.chunksOf m.context).length < 2 →
          (s.offer k (no ++ m :: rest)).pool = { s.pool with
            waiters := rest, refused := s.pool.refused ++ no
            chunks := s.pool.chunks.set k (some
              { context := m.context, role := .current, targets := o.targets, length := g.len }) })
  ∧ (∀ (s : State) (c : CtxId) (o : Op) (g : Segment), (s.ctx c).op = some o → (s.ctx c).segment = some g →
      let asks := o.usesChunk = true ∧ (o.isCopy = true → g.half = .destination) ∧ g.base + g.place + g.len < o.length
        ∧ (s.chunksOf c).length = 1 ∧ s.pool.waiters = [] ∧ ∀ t ∈ o.targets, s.mayClaim c t = true
      (¬ asks ∨ (∀ k : ChunkId, s.pool.chunks[k] ≠ none) → s.claimSecond c = s)
      ∧ ∀ k : ChunkId, asks → s.pool.chunks[k] = none → (∀ j : ChunkId, j < k → s.pool.chunks[j] ≠ none) →
          let t := s.claimSecond c
          let p := ((s.ctx c).profileOf .source).bus
          let start := g.base + g.place + g.len
          let next : Segment := {
            half := .source, target := o.target, addr := if p.cls = 0 then o.addr + BitVec.ofNat 24 start else o.addr
            base := start, len := segmentLength o .source p ((s.ctx c).profileOf .destination).bus start o.length }
          nextSegment (s.ctx c) o g = next
            ∧ t.ctx c = { s.ctx c with
                staged := some { next with hostRead := if o.readsHost = true then .pending else .notNeeded } }
            ∧ (∀ d, d ≠ c → t.ctx d = s.ctx d)
            ∧ t.pool = { s.pool with chunks := s.pool.chunks.set k (some
                { context := c, role := .staged, targets := o.targets, length := next.len }) }
            ∧ t.port = { s.port with
                moverReads := s.port.moverReads ++ if o.readsHost = true then segmentReads c k o next else [] }
            ∧ t.locks = s.locks ∧ t.cache = s.cache ∧ t.outside = s.outside)
  ∧ (∀ s : State,
      let yes (m : Claim) := m.targets.all fun t => s.mayClaim m.context t
      ∃ again : List CtxId,
        s.reclaim = again.foldl State.claimFirst { s with pool := { s.pool with
            refused := s.pool.refused.filter fun m => !yes m } }
          ∧ again.Perm ((s.pool.refused.filter yes).map (·.context))
          ∧ ∀ b : BitVec 32, (∀ c ∈ again, ((s.ctx c).seq - b).toNat < 2 ^ 31) →
              again.Pairwise fun c d => older (s.ctx d).seq (s.ctx c).seq = false)
  ∧ (∀ (c : CtxId) (k : ChunkId) (o : Op) (g : Segment),
      let first := o.data + BitVec.ofNat 64 (g.base + g.place)
      let room := 4096 - first.toNat % 4096
      let read (i n : Nat) : ReadReq := { ref := .data c k (g.place + i), addr := first + BitVec.ofNat 64 i, len := n }
      segmentReads c k o g = (if g.len ≤ room then [read 0 g.len] else [read 0 room, read room (g.len - room)])
        ∧ (o.readsHost = true ↔ o.kind = .write ∧ o.inline = false))

/-- How an op ends (R18 to R20, R23). The bytes field takes the bytes the op moved, or the BAD_PROFILE detail. Success raises
ops completed; a failure raises ops failed and, as the first, sets first error and failing op. With an abort pending the
context then completes ABORTED, with the first error kept (R20, R23). With none: a failure under STOP completes with its
code. Otherwise the next op becomes current from byte offset 0, or after the last the context completes OK, or PARTIAL with
the first error kept. The entry's fields are the context's. -/
def Obligations.OpEndsByPolicy : Prop :=
  ∀ (s : State) (c : CtxId) (o : Op) (k : Nat) (failure : Option Status) (bad : Bool),
    (s.ctx c).opIndex = some k → 1 ≤ k → (s.ctx c).op = some o →
    let x := s.ctx c
    let t := s.endOp c failure bad
    let y := t.ctx c
    let moved := if o.kind = .poll then (if 0 < x.polls then o.length else 0) else x.offset
    let first := x.firstError.or failure
    y.bytes = (if bad then 0xFFFFFFFF else BitVec.ofNat 32 moved)
      ∧ y.opsCompleted = x.opsCompleted + (if failure = none then 1 else 0)
      ∧ y.opsFailed = x.opsFailed + (if failure = none then 0 else 1)
      ∧ y.firstError = first
      ∧ y.failing = (if x.firstError = none ∧ failure ≠ none then some k else x.failing)
      ∧ (x.abortPending = false → failure = none ∨ x.continues = true → k < x.ops.length →
          y.state = .preparing ∧ y.opIndex = some (k + 1) ∧ y.offset = 0 ∧ y.retries = 0 ∧ y.releases = 0 ∧ y.polls = 0
            ∧ y.begun = false ∧ y.targetReset = false ∧ y.recheck = false ∧ y.timer = none ∧ y.segment = none
            ∧ y.staged = none ∧ y.returnData = x.returnData ∧ y.totalRetries = x.totalRetries)
      ∧ (let done (status : Status) (code : Option Status) := y.state = .completing ∧ y.opIndex = none ∧ y.timer = none
            ∧ y.entry = some {
              tag := x.tag, queue := x.queue.getD 0, status, first := code, failing := y.failing
              opsCompleted := y.opsCompleted, opsFailed := y.opsFailed, bytes := y.bytes
              totalRetries := x.totalRetries, ret := x.returnData, cookie := x.cookie }
         (x.abortPending = true → done .aborted first)
           ∧ (∀ code, x.abortPending = false → failure = some code → x.continues = false → done code (some code))
           ∧ (x.abortPending = false → failure = none ∨ x.continues = true → x.ops.length ≤ k → y.opsFailed = 0 →
              done .ok none)
           ∧ (x.abortPending = false → failure = none ∨ x.continues = true → x.ops.length ≤ k → y.opsFailed ≠ 0 →
              done .partialFail first))
      ∧ t.outside = s.outside

/-- How a profile copy is judged and an op checked. R87: not valid when the valid flag is clear, bad when a field lies
outside its range, else good; not valid ends the op TARGET_ABSENT, bad too with the BAD_PROFILE detail. R30: a
QUARANTINED target fails the op before its checks. R29, at byte offset `off` as R31 repeats it: range, alignment, class,
write protection and lock scope in this order, each for both targets of a COPY; the first that fails gives the code, and
at the op's first segment the op ends with it. A COPY's destination half is checked against its second target's new profile
for alignment and write protection (R31; which of the checks are repeated there is the model's choice, log 28). -/
def Obligations.ProfileJudgedAndOpChecked : Prop :=
  (∀ p : Profile,
      let inRange := p.bus.cls.toNat ≤ 1 ∧ p.bus.port.toNat ≤ 2 ∧ ¬ (1 ≤ p.bus.window.toNat ∧ p.bus.window.toNat ≤ 7)
        ∧ p.bus.window.toNat ≤ 20 ∧ p.bus.holdLimit ≠ 0 ∧ p.baseDelay ≠ 0
      (judgeProfile p = .notValid ↔ p.valid = false) ∧ (judgeProfile p = .bad ↔ p.valid = true ∧ ¬ inRange)
        ∧ (judgeProfile p = .good ↔ p.valid = true ∧ inRange))
  ∧ (∀ (s : State) (c : CtxId) (second : Bool) (o : Op) (p : Profile), (s.ctx c).op = some o →
      (s.ctx c).copyOf second = some p →
      (judgeProfile p = .notValid → s.prepJudge c second = s.endOp c (some .targetAbsent) false)
        ∧ (judgeProfile p = .bad → s.prepJudge c second = s.endOp c (some .targetAbsent) true))
  ∧ (∀ (o : Op) (m : BitVec 16) (p q : Profile) (off : Nat),
      let start (b : BusProfile) (a : TargetAddr) := if b.cls = 0 then a.toNat + off else a.toNat
      let inRange := o.addr.toNat + o.length ≤ 2 ^ 24 ∧ (o.kind = .copy → o.addr2.toNat + o.length ≤ 2 ^ 24)
      let aligned := if o.kind = .poll then o.length ≤ p.bus.width ∧ o.addr.toNat % o.length = 0
        else start p.bus o.addr % p.bus.width = 0 ∧ (o.length - off) % p.bus.width = 0
          ∧ (o.kind = .copy → start q.bus o.addr2 % q.bus.width = 0 ∧ (o.length - off) % q.bus.width = 0)
      let classFits := o.kind = .drain → p.bus.cls = 1
      let writable := (o.kind = .write ∨ o.kind = .fill → p.writeProtect = false) ∧ (o.kind = .copy → q.writeProtect = false)
      let inScope := m = 0 ∨ ∀ t ∈ o.targets, m.getLsbD t.val = true
      (¬ inRange → opChecks o m p q off = some .rangeError)
        ∧ (inRange → ¬ aligned → opChecks o m p q off = some .alignmentError)
        ∧ (inRange → aligned → ¬ classFits → opChecks o m p q off = some .classMismatch)
        ∧ (inRange → aligned → classFits → ¬ writable → opChecks o m p q off = some .writeProtected)
        ∧ (inRange → aligned → classFits → writable → ¬ inScope → opChecks o m p q off = some .lockScope)
        ∧ (inRange → aligned → classFits → writable → inScope → opChecks o m p q off = none))
  ∧ (∀ (s : State) (c : CtxId) (o : Op), (s.ctx c).op = some o → (s.ctx c).half = .source →
      ((∃ t ∈ o.targets, s.targets[t] ≠ none) → s.prepChecks c = s.endOp c (some .targetQuarantined) false)
      ∧ ((∀ t ∈ o.targets, s.targets[t] = none) → (s.ctx c).begun = false → (s.ctx c).offset = 0 → ∀ code,
          opChecks o (s.ctx c).lockMask ((s.ctx c).profileOf .source) ((s.ctx c).profileOf .destination) 0 = some code →
          s.prepChecks c = s.endOp c (some code) false))
  ∧ (∀ (o : Op) (q : Profile) (off : Nat),
      let aligned := (if q.bus.cls = 0 then o.addr2.toNat + off else o.addr2.toNat) % q.bus.width = 0
        ∧ (o.length - off) % q.bus.width = 0
      (o.kind = .copy → o.targets = [o.target, Fin.ofNat 16 o.target2Byte.toNat]) ∧ (o.kind ≠ .copy → o.targets = [o.target])
        ∧ (o.kind = .copy → ¬ aligned → destinationChecks o q off = some .alignmentError)
        ∧ (o.kind = .copy → aligned → q.writeProtect = true → destinationChecks o q off = some .writeProtected)
        ∧ (o.kind = .copy → aligned → q.writeProtect = false → destinationChecks o q off = none)
        ∧ (q.bus.port.toNat ≤ 2 → q.bus.width = 2 ^ q.bus.port.toNat))

/-! ### Register window -/

/-- The steps of a preparation (R10). A target-reset mark fails the op TARGET_RESET once its reads in flight have returned
(R24); that its listed reads are dropped and not awaited is the model's choice (log 16). Both profiles of a COPY's source
half are looked up in turn, else the half's own; a good one goes on. No target checked QUARANTINED, and no check failed that
is due (R29, R31): the segment is cut anew from where it begins (R9, R12), and an op that moves data through staging memory
claims a chunk, or keeps the one it holds, read again after a longer cut. A failed host read fails the op HOST_READ_ERROR
at step 7; one still to come is waited for. Last, the mark and the target states are tested once more (R24, R81), and the
context is BUS_READY. A copy discarded in the wait returns to step 2 (R98). That a context which waited with two chunks held
does so too, before it claims (the clause at `.run .claim`), is the model's choice (log 33). A context with all it needs and
no chunk to claim passes every step at once. The model's other choices: the return before the last test (log 35), both
lookups before step 3 (log 36), what a recut keeps (logs 13, 14), a destination half's checks (log 28). -/
def Obligations.PreparationTakesItsSteps : Prop :=
  (∀ (s : State) (c : CtxId),
      let w := s.modPort fun h => { h with moverReads := h.moverReads.filter fun r => !r.ref.isDataOf c }
      (s.ReadsInFlight (·.isDataOf c) → s.resetFails c = w.setPrep c .waitReads)
      ∧ (¬ s.ReadsInFlight (·.isDataOf c) → s.resetFails c = w.endOp c (some .targetReset) false)
      ∧ ((s.ctx c).prep = .run .start → (s.ctx c).targetReset = true → s.prepare c = s.resetFails c)
      ∧ ((s.ctx c).prep = .run .start → (s.ctx c).targetReset = false → s.prepare c = s.prepLookup c)
      ∧ ((s.ctx c).prep = .run .lookup → s.prepare c = s.prepLookup c)
      ∧ (∀ second, (s.ctx c).prep = .run (.judge second) → s.prepare c = s.prepJudge c second)
      ∧ ((s.ctx c).prep = .run .data → s.prepare c = s.prepData c))
  ∧ (∀ (x : Context) (o : Op),
      let g := x.segment.getD { base := x.offset }
      let p := x.profileOf g.half
      let a := if g.half = .source then o.addr else o.addr2
      let start := g.base + g.place
      let limit := if g.remainder = true ∨ g.half = .destination then start + g.len else o.length
      x.cut o = { g with
        target := if g.half = .source then o.target else o.target2
        addr := if p.bus.cls = 0 then a + BitVec.ofNat 24 start else a
        len := segmentLength o g.half (x.profileOf .source).bus (x.profileOf .destination).bus start limit })
  ∧ (∀ (s : State) (c : CtxId) (o : Op), (s.ctx c).op = some o →
      let x := s.ctx c
      let source := x.half = .source
      let copies := if source then x.prof1 ≠ none ∧ (o.kind = .copy → x.prof2 ≠ none) else x.prof2 ≠ none
      let quarantined := if source then ∃ t ∈ o.targets, s.targets[t] ≠ none else s.targets[o.target2] ≠ none
      let again := s.setPrep c (.run .lookup)
      (source → s.prepLookup c = (s.modCtx c fun y => { y with
          prof1 := none, prof2 := none, checking := y.checking || y.recheck, recheck := false }).lookup c o.target false)
      ∧ (¬ source → s.prepLookup c = (s.modCtx c fun y => { y with prof2 := none }).lookup c o.target2 true)
      ∧ (∀ second p, x.copyOf second = some p → judgeProfile p = .good →
          (second = false ∧ o.kind = .copy → s.prepJudge c second = s.lookup c o.target2 true)
          ∧ (¬ (second = false ∧ o.kind = .copy) → copies → s.prepJudge c second = s.prepChecks c)
          ∧ (¬ (second = false ∧ o.kind = .copy) → ¬ copies → s.prepJudge c second = again))
      ∧ (quarantined → s.prepChecks c = s.endOp c (some .targetQuarantined) false)
      ∧ (let due := if source then (x.begun = false ∧ x.offset = 0) ∨ x.checking = true else x.recheck = true
         let check := if source then opChecks o x.lockMask (x.profileOf .source) (x.profileOf .destination) x.offset
           else destinationChecks o (x.profileOf .destination) x.offset
         (∀ code, ¬ quarantined → due → check = some code → s.prepChecks c = s.endOp c (some code) false)
          ∧ (¬ quarantined → ¬ due ∨ check = none →
              s.prepChecks c = (s.modCtx c fun y => { y with checking := false }).prepCut c))
      ∧ (let n := x.cut o
         let moves := o.kind = .copy ∨ o.kind = .drain ∨ (o.kind = .write ∧ o.inline = false) ∨ (o.kind = .read ∧ o.ret = false)
         let put (u : State) (m : Segment) := u.modCtx c fun y => { y with segment := some m }
         (¬ moves → s.prepCut c = (put s n).prepReady c)
          ∧ (moves → s.chunkWith c .current = none → s.prepCut c = (put s n).claimFirst c)
          ∧ (∀ k, moves → s.chunkWith c .current = some k →
              let v := s.setChunk k (some { context := c, role := .current, targets := o.targets, length := n.len })
              let longer := o.readsHost = true ∧ (∃ old, x.segment = some old ∧ old.len < n.len)
                ∧ n.hostRead ≠ .failed ∧ n.readError = false
              let u := v.modPort fun h => { h with moverReads := h.moverReads.filter fun r => !r.ref.isChunk k }
              let listed := u.modPort fun h => { h with moverReads := h.moverReads ++ segmentReads c k o n }
              let anew := { n with hostRead := .pending, readError := false }
              (¬ longer → s.prepCut c = (put v n).prepData c)
              ∧ (longer → s.ReadsInFlight (·.isChunk k) → s.prepCut c = (put u { anew with reread := true }).prepData c)
              ∧ (longer → ¬ s.ReadsInFlight (·.isChunk k) →
                  s.prepCut c = (put listed { anew with reread := false }).prepData c)))
      ∧ ((s.ctx c).prep = .run .claim → s.prepare c = if x.hasCopies o = true then s.claimFirst c else again)
      ∧ (x.hasCopies o = true ↔ copies)
      ∧ (∀ g, x.segment = some g →
          (o.readsHost = false → s.prepData c = s.prepReady c)
          ∧ (o.readsHost = true →
            (g.hostRead = .failed → s.prepData c = s.endOp c (some .hostReadError) false)
            ∧ (g.hostRead ≠ .failed → ¬ copies → s.prepData c = again)
            ∧ (g.hostRead = .arrived → copies → s.prepData c = s.prepReady c)
            ∧ (g.hostRead ≠ .failed → g.hostRead ≠ .arrived → copies → s.prepData c = s.setPrep c .waitData)))
      ∧ (¬ copies → s.prepReady c = again)
      ∧ (copies → x.targetReset = true → s.prepReady c = s.resetFails c)
      ∧ (copies → x.targetReset = false → quarantined → s.prepReady c = s.endOp c (some .targetQuarantined) false)
      ∧ (copies → x.targetReset = false → ¬ quarantined →
          s.prepReady c = s.modCtx c fun y => { y with state := .busReady, prep := .none }))
  ∧ (∀ (s : State) (c : CtxId) (o : Op) (e : EntryId) (f : CacheEntry), s.regs.resetting = false →
      (∀ d, d ≠ c → (s.ctx d).runnable = false) → (s.ctx c).state = .preparing → (s.ctx c).prep = .run .start →
      (s.ctx c).targetReset = false → (s.ctx c).op = some o → o.usesChunk = false → (s.ctx c).half = .source →
      s.cached o.target = some e → s.cache.entries[e] = some f → judgeProfile f.profile = .good → s.targets[o.target] = none →
      opChecks o (s.ctx c).lockMask f.profile {} (s.ctx c).offset = none →
      let x := { s.ctx c with prof1 := some f.profile, prof2 := none, recheck := false, checking := false }
      let t := s.settle
      t.ctx c = { x with state := .busReady, prep := .none, segment := some (x.cut o) }
        ∧ (∀ d, d ≠ c → t.ctx d = s.ctx d) ∧ t.cache.entries = s.cache.entries
        ∧ t = { s with contexts := t.contexts, cache := t.cache })

/-- An enable that is taken (R132, R181): both ring size codes lie from 4 to 12; queue 0 starts with the rings of CTLQ_RING
and CTLQ_CPL, the profile table base is sampled, and IRQ_ENABLE takes the value written. One that is not taken, while
enabled or with a size code outside 4 to 12, writes IRQ_ENABLE alone; while RESETTING is set nothing is written. -/
def Obligations.EnableTakenOrIgnored : Prop :=
  let codeFits (ring : BitVec 64) : Prop := 4 ≤ ring.toNat % 16 ∧ ring.toNat % 16 ≤ 12
  (∀ (v : BitVec 32) (s : State), s.regs.resetting = false → s.regs.enabled = false →
      codeFits s.regs.ctlqRing → codeFits s.regs.ctlqCpl →
      ∃ t, exec (.enable v) s = .next t
        ∧ t.regs = { s.regs with enabled := true, irqEnable := v.getLsbD 2, profileTable := s.regs.profileBase }
        ∧ t.queue 0 = { s.queue 0 with
            state := .active, configured := true
            subBase := s.regs.ctlqRing &&& 0xFFFFFFFFFFFFF000, subSize := 2 ^ (s.regs.ctlqRing.toNat % 16)
            cplBase := s.regs.ctlqCpl &&& 0xFFFFFFFFFFFFF000, cplSize := 2 ^ (s.regs.ctlqCpl.toNat % 16)
            subHead := 0, subTail := 0, cplTail := 0, cplHead := 0, phase := true, reserved := 0
            count := 0, delayTimer := none, messageDue := false }
        ∧ t.contexts = s.contexts ∧ t.bus = s.bus ∧ t.targets = s.targets ∧ t.locks = s.locks ∧ t.pool = s.pool
        ∧ t.cache = s.cache ∧ t.fetcher = s.fetcher ∧ t.seqCounter = s.seqCounter ∧ t.clock = s.clock
        ∧ t.control = s.control ∧ t.pending = s.pending ∧ t.port.tags = s.port.tags)
  ∧ (∀ (v : BitVec 32) (s : State),
      (s.regs.resetting = true → exec (.enable v) s = .next s ∧ exec (.irqEnable v) s = .next s)
      ∧ (s.regs.resetting = false → s.regs.enabled = true ∨ ¬ codeFits s.regs.ctlqRing ∨ ¬ codeFits s.regs.ctlqCpl →
          exec (.enable v) s = exec (.irqEnable v) s))

/-- A queue owes a message when IRQ_ENABLE is set: its message due is set, or its count has reached its threshold. -/
def Obligations.IrqEnableSendsOwed : Prop :=
  ∀ (v : BitVec 32) (s : State), s.regs.resetting = false →
    let owes (q : QueueId) : Bool := (s.queue q).messageDue || decide ((s.queue q).threshold ≤ (s.queue q).count)
    let sends := v.getLsbD 2 && !s.regs.irqEnable
    ∃ t, exec (.irqEnable v) s = .next t
      ∧ t.regs = { s.regs with irqEnable := v.getLsbD 2 }
      ∧ t.posted = s.posted ++
          (if sends then ((List.finRange 9).filter owes).map PostedWrite.message else [])
      ∧ (∀ q, t.queue q =
          if sends && owes q then { s.queue q with count := 0, delayTimer := none, messageDue := false } else s.queue q)
      ∧ t = { s with regs := t.regs, queues := t.queues, port := { s.port with
          issueQueue := t.port.issueQueue, held := t.port.held } }

/-- A base register reads back what was written but for its reserved bits; a write to one half keeps the other; a write to
any other offset changes nothing; and no state but the register changes (R180, R184). -/
def Obligations.BaseRegisterReadsBack : Prop :=
  ∀ (o : BitVec 8) (w : Width) (v : BitVec 64) (s : State), s.BasesAligned → registerWriteOk o w v = true →
    let base := o.toNat / 8 * 8
    let fields := if base = 0x28 then baseFields else ringFields
    ∃ t, exec (.registerWrite o w v) s = .next t
      ∧ t = { s with regs := { s.regs with
          ctlqRing := t.regs.ctlqRing, ctlqCpl := t.regs.ctlqCpl, profileBase := t.regs.profileBase } }
      ∧ (∀ p x, p.toNat / 8 ≠ o.toNat / 8 → readRegister t.regs p x = readRegister s.regs p x)
      ∧ (base ≠ 0x18 → base ≠ 0x20 → base ≠ 0x28 → t = s)
      ∧ (base = 0x18 ∨ base = 0x20 ∨ base = 0x28 →
          match w with
          | .full => readRegister t.regs o .full = v &&& fields
          | .half =>
            readRegister t.regs o .half
                = v &&& (if o.toNat % 8 = 0 then fields &&& 0xFFFFFFFF else fields >>> 32)
              ∧ readRegister t.regs (o ^^^ 4) .half = readRegister s.regs (o ^^^ 4) .half)

/-! ### INDEX_PORT -/

/-- A SUB_TAIL write that passes its checks replaces the queue's tail (R136). No other row's tail changes, no head, state
or completion index of any row, and for a STOPPING or HALTED queue nothing of its row but the tail. On a queue 1 to 8 the
Record Fetcher then makes an evaluation (R150): it visits the queues after its pointer up to 8, then 1 up to the pointer
(R151). A queue is passed over unless it is ACTIVE with a record offered, below its limit and with no fetch in flight, a
context is FREE and the sequence counter is within reach of every context in use (R2, R150). Without room for a
reservation the refusal is remembered; else the lowest-numbered FREE context is LOADING with the counter's value, which
then rises by one, the reservation and the outstanding count rise, the fetch record is in flight in phase HEADER, the header
slot's read is listed and the pointer takes the queue (R3, R139, R151, R152); nothing else changes. On queue 0 the Control
Unit leaves READ_FAILED and makes its test (R164). That a host address wraps is the model's choice (log 24). -/
def Obligations.SubTailReplacesTail : Prop :=
  (∀ (f : BitVec 4) (v : BitVec 16) (s : State) (q : QueueId), f.toNat = q.val → s.regs.resetting = false →
    (s.queue q).state ≠ .disabled → v.toNat < (s.queue q).subSize →
    ∃ t, exec (.subTail f v) s = .next t ∧ (t.queue q).subTail = v.toNat
      ∧ (let u := s.modQueue q fun r => { r with subTail := v.toNat }
         (q ≠ 0 → t = u.fetchEvaluate)
          ∧ (q = 0 → s.control.state ≠ .readFailed → t = u.controlTest)
          ∧ (q = 0 → s.control.state = .readFailed → t = (u.modControl fun k => { k with state := .idle }).controlTest))
      ∧ (∀ p, p ≠ q → (t.queue p).subTail = (s.queue p).subTail)
      ∧ (∀ p, (t.queue p).state = (s.queue p).state ∧ (t.queue p).subHead = (s.queue p).subHead
          ∧ (t.queue p).cplTail = (s.queue p).cplTail ∧ (t.queue p).cplHead = (s.queue p).cplHead)
      ∧ ((s.queue q).state ≠ .active → t.queue q = { s.queue q with subTail := v.toNat })
      ∧ t.regs = s.regs ∧ t.bus = s.bus ∧ t.targets = s.targets ∧ t.locks = s.locks ∧ t.pool = s.pool
      ∧ t.cache = s.cache ∧ t.clock = s.clock ∧ t.posted = s.posted ∧ t.port.tags = s.port.tags
      ∧ t.pending = s.pending)
  ∧ (∀ s : State, s.regs.resetting = false → s.fetcher.pointer ≤ 8 →
      s.fetchEvaluate = (List.range' (s.fetcher.pointer + 1) (8 - s.fetcher.pointer) ++ List.range' 1 s.fetcher.pointer).foldl
        (fun u q => u.visitQueue (Fin.ofNat 9 q)) s)
  ∧ (∀ (s : State) (q : QueueId), q ≠ 0 →
      let r := s.queue q
      let ready := r.state = .active ∧ r.subTail ≠ r.subHead ∧ r.outstanding < r.limit ∧ s.fetchOf q = none
        ∧ ∀ c, (s.ctx c).state = .free ∨ (s.seqCounter - (s.ctx c).seq).toNat < 2 ^ 31 - 1
      let room := r.written + r.reserved < r.cplSize - 1
      (¬ ready ∨ (∀ c, (s.ctx c).state ≠ .free) → s.visitQueue q = s)
      ∧ ∀ c, ready → (s.ctx c).state = .free → (∀ d, d < c → (s.ctx d).state ≠ .free) →
        (¬ room → s.visitQueue q = s.modQueue q fun x => { x with refused := true })
        ∧ (room →
          let t := s.visitQueue q
          t.ctx c = { s.ctx c with state := .loading, queue := some q, seq := s.seqCounter }
            ∧ (∀ d, d ≠ c → t.ctx d = s.ctx d)
            ∧ t.queue q = { r with reserved := r.reserved + 1, refused := false, outstanding := r.outstanding + 1 }
            ∧ (∀ p, p ≠ q → t.queue p = s.queue p)
            ∧ t.fetchOf q = some { context := c, firstSlot := r.subHead, phase := .header, loaded := 0, error := false }
            ∧ (∀ p, p ≠ 0 → p ≠ q → t.fetchOf p = s.fetchOf p)
            ∧ t.fetcher.pointer = q.val ∧ t.seqCounter = s.seqCounter + 1
            ∧ t.port = { s.port with fetcherReads := s.port.fetcherReads
                ++ [{ ref := .slot q c 0, addr := r.subBase + BitVec.ofNat 64 (64 * r.subHead), len := 64 }] }
            ∧ t = { s with contexts := t.contexts, queues := t.queues, fetcher := t.fetcher, port := t.port
                           seqCounter := t.seqCounter }))

/-- A CPL_HEAD write to a queue that is not DISABLED passes when the head is below the size and its distance from the old
head is at most the written count; then it replaces the head, the written count falls by the entries freed, and a
requester whose reservation was refused asks again when entries were freed (R137, R140): the Record Fetcher by an
evaluation, the Control Unit from RESERVING by its test. What the Control Unit tests before it asks again is the model's
choice of log 31. The Control Unit's test (R164): in IDLE, with queue 0 ACTIVE and a record offered and RESETTING clear, it
asks for a reservation; granted, it is READING and the slot's read is listed; refused, the refusal is remembered and it is
RESERVING; otherwise nothing changes. That a host address wraps is the model's choice (log 24). -/
def Obligations.CplHeadFreesEntries : Prop :=
  (∀ (f : BitVec 4) (v : BitVec 16) (s : State) (q : QueueId), f.toNat = q.val → s.regs.resetting = false →
    (s.queue q).state ≠ .disabled → (s.queue q).InRange →
    let r := s.queue q
    let freed := (v.toNat + r.cplSize - r.cplHead) % r.cplSize
    let t := s.modQueue q fun x => { x with cplHead := v.toNat }
    (v.toNat < r.cplSize ∧ freed ≤ r.written →
      exec (.cplHead f v) s = .next (if 0 < freed ∧ r.refused = true then t.roomMade q else t)
        ∧ (t.queue q).written + freed = r.written)
    ∧ (¬ (v.toNat < r.cplSize ∧ freed ≤ r.written) →
      exec (.cplHead f v) s = .next (s.indexErrorSeen .headRange f)))
  ∧ (∀ (s : State) (q : QueueId),
      (q ≠ 0 → s.roomMade q = s.fetchEvaluate)
      ∧ (q = 0 → s.control.state = .reserving → s.roomMade q = (s.modControl fun k => { k with state := .idle }).controlTest)
      ∧ (q = 0 → s.control.state ≠ .reserving → s.roomMade q = s))
  ∧ (∀ s : State,
      let r := s.queue 0
      let begins := s.control.state = .idle ∧ r.state = .active ∧ r.subTail ≠ r.subHead ∧ s.regs.resetting = false
      let room := r.written + r.reserved < r.cplSize - 1
      (¬ begins → s.controlTest = s)
      ∧ (begins → ¬ room → s.controlTest =
          (s.modQueue 0 fun x => { x with refused := true }).modControl fun k => { k with state := .reserving })
      ∧ (begins → room → s.controlTest =
          ((s.modQueue 0 fun x => { x with reserved := r.reserved + 1, refused := false }).modControl fun k =>
            { k with state := .reading }).modPort fun h => { h with controlReads := h.controlReads
              ++ [{ ref := .control, addr := r.subBase + BitVec.ofNat 64 (64 * r.subHead), len := 64 }] }))

/-- The checks of an INDEX_PORT write in their order, each with its error kind; a failed write only latches its error
and owes its notice, a write while RESETTING is set changes nothing (R136, R138). The index error latch keeps the
first error: a failure while it is set changes nothing; one while it is clear sets it and owes a notice on vector 0, a
message when IRQ_ENABLE is set and message due when it is clear (R138, R146). A write to STATUS with bit 2 set clears
the latch, one with bit 2 clear changes nothing, both also while RESETTING is set (R183). -/
def Obligations.IndexErrorsCheckedAndLatched : Prop :=
  (∀ (f : BitVec 4) (v : BitVec 16) (s : State),
    (s.regs.resetting = true → exec (.subTail f v) s = .next s ∧ exec (.cplHead f v) s = .next s)
    ∧ (s.regs.resetting = false → 8 < f.toNat →
        exec (.subTail f v) s = .next (s.indexErrorSeen .badQueue f)
          ∧ exec (.cplHead f v) s = .next (s.indexErrorSeen .badQueue f))
    ∧ (∀ q : QueueId, s.regs.resetting = false → f.toNat = q.val → (s.queue q).state = .disabled →
        exec (.subTail f v) s = .next (s.indexErrorSeen .queueState f)
          ∧ exec (.cplHead f v) s = .next (s.indexErrorSeen .queueState f))
    ∧ (∀ q : QueueId, s.regs.resetting = false → f.toNat = q.val → (s.queue q).state ≠ .disabled →
        (s.queue q).subSize ≤ v.toNat → exec (.subTail f v) s = .next (s.indexErrorSeen .tailRange f)))
  ∧ (∀ (k : IndexErrorKind) (f : BitVec 4) (s : State), s.regs.resetting = false →
      (s.regs.indexError ≠ none → s.indexErrorSeen k f = s)
      ∧ (s.regs.indexError = none →
        let t := s.indexErrorSeen k f
        t.regs = { s.regs with indexError := some (k, f) }
          ∧ t.queue 0 = { s.queue 0 with messageDue := !s.regs.irqEnable }
          ∧ (∀ q, q ≠ 0 → t.queue q = s.queue q)
          ∧ t.posted = s.posted ++ (if s.regs.irqEnable then [PostedWrite.message 0] else [])
          ∧ t = { s with regs := t.regs, queues := t.queues, port := { s.port with
              issueQueue := t.port.issueQueue, held := t.port.held } }))
  ∧ (∀ (v : BitVec 32) (s : State),
      exec (.indexErrorClear v) s =
        .next (if v.getLsbD 2 then { s with regs := { s.regs with indexError := none } } else s))

/-! ### Completion rings -/

/-- The reservation law (R139): on every queue that is not DISABLED, written entries and reservations together are at most
the completion ring's size less one, and every step keeps it so. A reservation is granted exactly while the sum is
below the size less one, and raises reserved by one; an entry that takes its place against a reservation, and a CPL_HEAD
write, leave the sum as it is or lower. -/
def Obligations.ReservationLaw : Prop :=
  (∀ s t : State, s.RingsInRange → s.ReservationsFit → step s = .next t → t.ReservationsFit)
  ∧ (∀ r : QueueRow, r.hasRoom = true ↔ r.written + r.reserved < r.cplSize - 1)
  ∧ (∀ (s : State) (q : QueueId), (s.reserve q).queue q = { s.queue q with
      reserved := (s.queue q).reserved + 1, refused := false })
  ∧ (∀ r : QueueRow, r.hasRoom = true → r.written + (r.reserved + 1) ≤ r.cplSize - 1)
  ∧ (∀ r : QueueRow, r.InRange → r.state ≠ .disabled → 0 < r.reserved → r.written + r.reserved ≤ r.cplSize - 1 →
      r.entryPlaced.written = r.written + 1 ∧ r.entryPlaced.reserved + 1 = r.reserved)
  ∧ (∀ (r : QueueRow) (head : Nat), r.InRange → r.state ≠ .disabled → r.headOk head = true →
      QueueRow.written { r with cplHead := head } + r.freedBy head = r.written)

/-- An entry takes the place at the completion tail with the queue's phase marker; the tail advances, reserved falls by
one, and the phase flips when the tail wraps (R141). That the reservation is consumed here and not at the issue is the
model's choice between R141 and R3 (log 37), and that a host address wraps is its own (log 24). -/
def Obligations.EntryTakesPlaceAtTail : Prop :=
  ∀ (s : State) (q : QueueId) (c : Option CtxId) (n : Bool) (e : Entry), (s.queue q).InRange →
    (s.queue q).state ≠ .disabled →
    let r := s.queue q
    let t := s.handEntry q c n e
    t.posted = s.posted ++ [.entry q c n (r.cplBase + BitVec.ofNat 64 (32 * r.cplTail)) r.phase e]
      ∧ t.queue q = { r with
          cplTail := if r.cplTail + 1 = r.cplSize then 0 else r.cplTail + 1
          reserved := r.reserved - 1
          phase := if r.cplTail + 1 = r.cplSize then !r.phase else r.phase }
      ∧ (∀ p, p ≠ q → t.queue p = s.queue p)
      ∧ t = { s with queues := t.queues, port := { s.port with
          issueQueue := t.port.issueQueue, held := t.port.held } }

/-- COMPLETION_HANDOFF: a context may hand its entry while it is COMPLETING, has not handed it, RESETTING is clear, and no
data read of it is in flight and no data write of it owed (R21, R25). Then the entry goes to its queue with its IRQ_NOW
flag, the context is marked handed, and every chunk it holds is freed (R123, R141); one that does not wait for a chunk holds
none afterwards, and while nobody waits for a chunk or a lock the chunks are FREE. Until then nothing changes. -/
def Obligations.CompletionHandedWhenQuiet : Prop :=
  ∀ (s : State) (c : CtxId) (q : QueueId) (e : Entry), (s.ctx c).queue = some q → (s.ctx c).entry = some e →
    let quiet := (s.ctx c).state = .completing ∧ (s.ctx c).handed = false ∧ s.regs.resetting = false
      ∧ ¬ s.ReadsInFlight (·.isDataOf c) ∧ ¬ s.OwesWrite (·.dataOf c)
    let v := (s.handEntry q (some c) (s.ctx c).irqNow e).modCtx c fun x => { x with handed := true }
    let w := (s.chunksOf c).foldl State.freeChunk v
    (s.mayHand c = true ↔ quiet)
    ∧ (quiet →
      exec (.completionHandoff c) s = .next w.settle ∧ w.settle.outside = (s.handEntry q (some c) (s.ctx c).irqNow e).outside
        ∧ w.ctx c = { v.ctx c with state := (w.ctx c).state, prep := (w.ctx c).prep, segment := (w.ctx c).segment }
        ∧ ((∀ m ∈ s.pool.waiters ++ s.pool.refused, m.context ≠ c) →
            ∀ k h, w.pool.chunks[(k : ChunkId)] = some h → h.context ≠ c)
        ∧ (s.pool.waiters = [] → s.locks.waiters = [] → ∀ k : ChunkId,
            w.pool.chunks[k] = if (s.pool.chunks[k]).any (fun h => h.context == c) then none else s.pool.chunks[k]))
    ∧ (¬ quiet → exec (.completionHandoff c) s = .next s)

/-- DATA_WRITE_ISSUED and MESSAGE_ISSUED: the write at the head of the issue queue leaves it, and the first write held
by a block takes the place (R161). The chunk of the data write is freed when its segment has ended, no read for it is in
flight and no other write of it is owed, and stands otherwise (R122; log 39); a freed chunk is told to the Lock Table, wakes
its holder where that waited for it (R8, R118; log 33), is offered to the waiters, and is FREE when nobody waits for a chunk
or a lock (R119). The chunk of a segment that ends or is discarded has its listed reads dropped and is freed by the same
rule: at once, with no read of it in flight and no write owed (R13, R14, R122). ENTRY_ISSUED for a context's entry:
moderation counts it, the context's chunks and its lock set are released, it becomes FREE and leaves its queue's
outstanding count, and the fences, a STOPPING queue and the Record Fetcher take notice (R21, R6, R134, R150); for a control
completion moderation alone counts it (R141). The fences: every context in FENCE_WAIT of that queue with no older context
of its queue in use goes on to LOCK_WAIT if its lock mask is not empty, else to PREPARING; the others stand (R6);
several of them go on one after another while every lock waiter is a context in LOCK_WAIT, as R103 has it. A lock
release frees every row its holder held and no other, and an evaluation and a notice to the Staging Pool follow (R108,
R110). The order of these consequences is the model's choice (log 5). -/
def Obligations.IssuedWriteLeavesQueue : Prop :=
  (∀ (s : State) (c : CtxId) (k : ChunkId) (a : HostAddr) (b : List Byte) (rest : List PostedWrite),
    s.port.issueQueue = .data c k a b :: rest →
    ∃ t, exec .dataWriteIssued s = .next t ∧ t = (s.popWrite.freeIfDone k).settle ∧ t.outside = s.popWrite.outside
      ∧ t.posted = rest ++ s.port.held)
  ∧ (∀ (s : State) (k : ChunkId) (h : ChunkHold), s.pool.chunks[k] = some h →
      let done := h.role = .ended ∧ ¬ s.ReadsInFlight (·.isChunk k) ∧ ¬ s.OwesWrite (·.ofChunk k)
      let u := ((s.setChunk k none).wake h.context).lockEvaluate
      (done → s.freeIfDone k = s.freeChunk k) ∧ (¬ done → s.freeIfDone k = s)
        ∧ (u.pool.chunks[k] = none → s.freeChunk k = u.offer k u.pool.waiters)
        ∧ (u.pool.chunks[k] ≠ none → s.freeChunk k = u)
        ∧ (s.pool.waiters = [] → s.locks.waiters = [] →
            (s.freeChunk k).pool = { s.pool with chunks := s.pool.chunks.set k none }))
  ∧ (∀ (s : State) (k : ChunkId) (h : ChunkHold), s.pool.chunks[k] = some h →
      let ended := (s.modPort fun p => { p with moverReads := p.moverReads.filter fun r => !r.ref.isChunk k }).setChunk k
        (some { h with role := .ended })
      let busy := s.ReadsInFlight (·.isChunk k) ∨ s.OwesWrite (·.ofChunk k)
      (busy → s.endChunk k = ended) ∧ (¬ busy → s.endChunk k = ended.freeChunk k)
        ∧ (¬ busy → s.pool.waiters = [] → s.locks.waiters = [] →
            (s.endChunk k).pool = { s.pool with chunks := s.pool.chunks.set k none }))
  ∧ (∀ (s : State) (c : CtxId) (role : Role),
      let held (k : ChunkId) := ∃ h, s.pool.chunks[k] = some h ∧ h.context = c ∧ h.role = role
      ((∀ k, ¬ held k) → s.chunkWith c role = none ∧ s.endRole c role = s)
        ∧ (∀ k, held k → (∀ j, j < k → ¬ held j) → s.chunkWith c role = some k ∧ s.endRole c role = s.endChunk k)
        ∧ s.discardStaged c = (s.modCtx c fun x => { x with staged := none }).endRole c .staged
        ∧ ((s.ctx c).prep = .waitTwo → s.wake c = s.setPrep c (.run .claim))
        ∧ ((s.ctx c).prep = .waitFreed → s.chunksOf c = [] → s.wake c = s.setPrep c (.run .start))
        ∧ ((s.ctx c).prep ≠ .waitTwo → (s.ctx c).prep ≠ .waitFreed ∨ s.chunksOf c ≠ [] → s.wake c = s))
  ∧ (∀ (s : State) (q : QueueId) (rest : List PostedWrite), s.port.issueQueue = .message q :: rest →
    exec .messageIssued s = .next s.popWrite ∧ s.popWrite.posted = rest ++ s.port.held
      ∧ s.popWrite = { s with port := { s.port with
          issueQueue := s.popWrite.port.issueQueue, held := s.popWrite.port.held } })
  ∧ (∀ (s : State) (q : QueueId) (c : CtxId) (n : Bool) (a : HostAddr) (p : Bool) (e : Entry) (rest : List PostedWrite),
      s.port.issueQueue = .entry q (some c) n a p e :: rest →
      let m := s.popWrite.moderate q n
      let u := ((m.chunksOf c).foldl State.freeChunk m).lockRelease c
      let v := u.freeContext q c
      exec .entryIssued s = .next (((v.fenceRelease q).queueTest q).fetchEvaluate.settle)
        ∧ v.ctx c = {} ∧ (∀ d : CtxId, d ≠ c → v.ctx d = u.ctx d)
        ∧ v.queue q = { u.queue q with outstanding := (u.queue q).outstanding - 1 }
        ∧ v.locks = u.locks ∧ u.outside = m.outside)
  ∧ (∀ (s : State) (q : QueueId) (n : Bool) (a : HostAddr) (p : Bool) (e : Entry) (rest : List PostedWrite),
      s.port.issueQueue = .entry q none n a p e :: rest → exec .entryIssued s = .next (s.popWrite.moderate q n))
  ∧ (∀ (s : State) (q : QueueId),
      let waits (c : CtxId) := (s.ctx c).state = .fenceWait ∧ (s.ctx c).queue = some q
      let blocked (c : CtxId) := ∃ d, (s.ctx d).state ≠ .free ∧ (s.ctx d).queue = some q
        ∧ older (s.ctx d).seq (s.ctx c).seq = true
      let goesOn (u : State) (c : CtxId) :=
        if (s.ctx c).lockMask = 0 then u.modCtx c fun x => { x with state := .preparing, prep := .run .start } else u.lockJoin c
      ((∀ c, waits c → blocked c) → s.fenceRelease q = s)
        ∧ (∀ c, waits c → ¬ blocked c → (∀ d, d ≠ c → waits d → blocked d) → s.fenceRelease q = goesOn s c)
        ∧ ((∀ w ∈ s.locks.waiters, (s.ctx w.context).state = .lockWait) →
            ∃ l : List CtxId, s.fenceRelease q = l.foldl goesOn s ∧ l.Nodup ∧ ∀ c, c ∈ l ↔ waits c ∧ ¬ blocked c))
  ∧ (∀ (s : State) (c : CtxId),
      let released : State := { s with locks := { s.locks with
        rows := Vector.ofFn fun t => if s.locks.rows[t] = some c then none else s.locks.rows[t] } }
      s.lockRelease c = released.lockEvaluate.reclaim
        ∧ (s.locks.waiters = [] →
            ∀ t : TargetId, (s.lockRelease c).locks.rows[t] = if s.locks.rows[t] = some c then none else s.locks.rows[t]))

/-- Moderation of an issued entry (R143): the count rises by one up to 65,535; IRQ_NOW or the threshold owes a
message; a delay above 0 starts an idle timer; otherwise count and timer stand. A message owed (R145): with IRQ_ENABLE
set it is handed behind the writes before it, the count goes to 0, the delay timer stops and message due clears; with
IRQ_ENABLE clear message due sets, the count stands and the timer stops; while RESETTING is set nothing is handed.
DELAY_TIMER_DUE: the clock reaches the due time and the timer goes idle; a count above 0 owes a message, a count of 0
brings nothing more (R144). That the event moves the clock to its due time is the model's choice (log 3). -/
def Obligations.ModerationOwesMessages : Prop :=
  (∀ (s : State) (q : QueueId) (n : Bool),
      let r := s.queue q
      let k := min 65535 (r.count + 1)
      let u := s.modQueue q fun x => { x with count := k }
      s.moderate q n =
        if n = true ∨ r.threshold ≤ k then u.oweMessage q
        else if 0 < r.delay ∧ r.delayTimer = none then
          s.modQueue q fun x => { x with count := k, delayTimer := some (s.now + r.delay) }
        else u)
  ∧ (∀ (s : State) (q : QueueId),
      (s.regs.resetting = true → s.oweMessage q = s)
      ∧ (s.regs.resetting = false → s.regs.irqEnable = true →
          (s.oweMessage q).posted = s.posted ++ [.message q]
            ∧ (s.oweMessage q).queue q = { s.queue q with count := 0, delayTimer := none, messageDue := false }
            ∧ ∀ p, p ≠ q → (s.oweMessage q).queue p = s.queue p)
      ∧ (s.regs.resetting = false → s.regs.irqEnable = false →
          s.oweMessage q = s.modQueue q fun r => { r with messageDue := true, delayTimer := none }))
  ∧ (∀ (s : State) (q : QueueId) (due : Nat), (s.queue q).delayTimer = some due →
    let u : State := ({ s with clock := max s.clock (50 * due) }).modQueue q fun r => { r with delayTimer := none }
    exec (.delayTimerDue q) s = .next (if 0 < (s.queue q).count then u.oweMessage q else u))

/-! ### Host reads -/

/-- TAG_GRANT: the lowest-numbered FREE tag is granted to the first class in rotation with a waiting read, from the class
after the pointer round to the pointer's own; the tag takes the read and the present time, and the class pointer the class.
The read is its class's next and leaves its waiting reads; the other classes' reads stand. The next read of the fetcher, the
control fetch and the profile loader is the one listed first; the data mover's is the first listed for the oldest context
with a read listed, one of its current segment's chunk before any other. A class has no next read exactly when it has no
waiting read (R159). An extension read raises its fetch record's reads in flight by one, and no other read touches a fetch
record (R154). -/
def Obligations.TagGrantedInRotation : Prop :=
  (∀ (s : State) (i : TagId) (k : ReqClass) (r : ReadReq), s.regs.resetting = false → s.freeTag? = some i →
    s.nextRead = some (k, r) →
    ∃ t, exec .tagGrant s = .next t ∧ s.port.tags[i] = .free ∧ (∀ j : TagId, j < i → s.port.tags[j] ≠ .free)
      ∧ t.port.tags[i] = .inFlight r s.now ∧ (∀ j : TagId, j ≠ i → t.port.tags[j] = s.port.tags[j])
      ∧ (∃ before behind, classOrder s.port.classPtr = before ++ k :: behind ∧ ∀ j ∈ before, s.nextReadOf j = none)
      ∧ s.nextReadOf k = some r
      ∧ t.port = { s.port with
          tags := t.port.tags, classPtr := some k
          fetcherReads := if k = .fetcher then s.port.fetcherReads.erase r else s.port.fetcherReads
          controlReads := if k = .controlFetch then s.port.controlReads.erase r else s.port.controlReads
          loaderReads := if k = .profileLoader then s.port.loaderReads.erase r else s.port.loaderReads
          moverReads := if k = .dataMover then s.port.moverReads.erase r else s.port.moverReads }
      ∧ (∀ (q : QueueId) (c : CtxId) (n : Nat), r.ref = .slot q c (n + 1) → q ≠ 0 →
          t.fetchOf q = (s.fetchOf q).map (fun f => { f with inFlight := f.inFlight + 1 })
            ∧ ∀ p : QueueId, p ≠ 0 → p ≠ q → t.fetchOf p = s.fetchOf p)
      ∧ ((∀ (q : QueueId) (c : CtxId) (n : Nat), r.ref ≠ .slot q c (n + 1)) → t.fetcher = s.fetcher)
      ∧ t = { s with port := t.port, fetcher := { s.fetcher with records := t.fetcher.records } })
  ∧ classOrder none = [.fetcher, .controlFetch, .profileLoader, .dataMover]
  ∧ (∀ k : ReqClass, ∃ upTo after, classOrder none = upTo ++ k :: after ∧ classOrder (some k) = after ++ upTo ++ [k])
  ∧ (∀ s : State,
      let owns (c : CtxId) (r : ReadReq) := r ∈ s.port.moverReads ∧ r.ref.isDataOf c = true
      let owners := (List.finRange 16).filter fun c => s.port.moverReads.any fun r => r.ref.isDataOf c
      s.nextReadOf .fetcher = s.port.fetcherReads.head? ∧ (s.nextReadOf .fetcher = none ↔ s.port.fetcherReads = [])
      ∧ s.nextReadOf .controlFetch = s.port.controlReads.head? ∧ (s.nextReadOf .controlFetch = none ↔ s.port.controlReads = [])
      ∧ s.nextReadOf .profileLoader = s.port.loaderReads.head? ∧ (s.nextReadOf .profileLoader = none ↔ s.port.loaderReads = [])
      ∧ (s.nextReadOf .dataMover = none ↔ ∀ c r, ¬ owns c r)
      ∧ (∀ c, c ∈ owners ↔ ∃ r, owns c r)
      ∧ (∀ r, s.nextReadOf .dataMover = some r → ∃ c before behind, s.oldest owners = some c ∧ owns c r
          ∧ s.port.moverReads = before ++ r :: behind
          ∧ (∀ k, s.chunkWith c .current = some k → (∃ x, owns c x ∧ x.ref.isChunk k = true) → r.ref.isChunk k = true
              ∧ ∀ x ∈ before, x.ref.isDataOf c = true → x.ref.isChunk k = false)
          ∧ ((∀ k, s.chunkWith c .current = some k → ∀ x, owns c x → x.ref.isChunk k = false) →
              ∀ x ∈ before, x.ref.isDataOf c = false)))

/-- HEADER_SLOT_RETURN that halts a transaction queue, ACTIVE or STOPPING. With a host error (R152, R4, R135) the
reservation is given back, the context is FREE, an ACTIVE queue is HALTED with FETCH_ERROR, its mask bit is set and a notice
owed on vector 0 (R146), its head stays, and no entry is posted. With a header whose slot count, 1 to 4, is above the slots
the host has offered (R153, R135, R5), the same with SHORT_RECORD, its counts stay, and the context is COMPLETING with an
entry of MALFORMED_RECORD, or ABORTED when an abort is pending (R23). A STOPPING queue takes the reason, the mask bit and the
notice and stays STOPPING (R135); with nothing else outstanding after a header error it goes on to DISABLED, and its mask
bit is clear again (R134, R183). In all cases no extension read is made: a read listed afterwards was listed before, or is a
header slot's (R151, R153). What a halt does to any queue. -/
def Obligations.HeaderErrorHaltsQueue : Prop :=
  (∀ (s : State) (i : TagId) (q : QueueId) (c : CtxId) (a : HostAddr) (n : Nat), q ≠ 0 →
    s.Awaits i { ref := .slot q c 0, addr := a, len := n } →
    (s.queue q).state = .active ∨ ((s.queue q).state = .stopping ∧ 1 < (s.queue q).outstanding) →
    ∃ t, exec (.headerSlotReturn i .hostError) s = .next t ∧ t.port.tags[i] = .free
      ∧ t.queue q = { s.queue q with
          state := if (s.queue q).state = .active then .halted else .stopping, haltReason := .fetchError
          outstanding := (s.queue q).outstanding - 1, reserved := (s.queue q).reserved - 1 }
      ∧ (∀ r ∈ t.port.fetcherReads, r ∈ s.port.fetcherReads ∨ r.ref.isHeader = true)
      ∧ t.regs = { s.regs with haltedMask := s.regs.haltedMask ||| (1#8 <<< (q.val - 1)) }
      ∧ t.posted = s.posted ++ (if s.regs.irqEnable then [PostedWrite.message 0] else [])
      ∧ t.bus = s.bus ∧ t.targets = s.targets ∧ t.pool.memory = s.pool.memory ∧ t.clock = s.clock)
  ∧ (∀ (s : State) (i : TagId) (q : QueueId) (c : CtxId) (a : HostAddr) (f : FetchRecord) (slot : List Byte), q ≠ 0 →
    s.Awaits i { ref := .slot q c 0, addr := a, len := 64 } → slot.length = 64 → s.fetchOf q = some f →
    (s.queue q).state = .active ∨ ((s.queue q).state = .stopping ∧ 0 < (s.queue q).outstanding) →
    (s.queue q).subHead < (s.queue q).subSize →
    (∀ w ∈ s.locks.waiters, w.context ≠ c) →
    let h := parseHeader slot
    1 ≤ h.slotCount → h.slotCount ≤ 4 →
    ((s.queue q).subTail + (s.queue q).subSize - f.firstSlot) % (s.queue q).subSize < h.slotCount →
    ∃ t, exec (.headerSlotReturn i (.data slot)) s = .next t ∧ t.port.tags[i] = .free
      ∧ t.queue q = { s.queue q with
          state := if (s.queue q).state = .active then .halted else .stopping, haltReason := .shortRecord }
      ∧ (∀ r ∈ t.port.fetcherReads, r ∈ s.port.fetcherReads ∨ r.ref.isHeader = true)
      ∧ t.regs = { s.regs with haltedMask := s.regs.haltedMask ||| (1#8 <<< (q.val - 1)) }
      ∧ t.posted = s.posted ++ (if s.regs.irqEnable then [PostedWrite.message 0] else [])
      ∧ t.fetchOf q = none ∧ (t.ctx c).state = .completing
      ∧ (∃ e, (t.ctx c).entry = some e ∧ e.tag = h.tag ∧ e.cookie = h.cookie
          ∧ ((s.ctx c).abortPending = false → e.status = .malformedRecord ∧ e.first = some .malformedRecord)
          ∧ ((s.ctx c).abortPending = true → e.status = .aborted))
      ∧ t.bus = s.bus ∧ t.targets = s.targets ∧ t.pool.memory = s.pool.memory ∧ t.clock = s.clock)
  ∧ (∀ (s : State) (i : TagId) (q : QueueId) (c : CtxId) (a : HostAddr) (n : Nat), q ≠ 0 →
    s.Awaits i { ref := .slot q c 0, addr := a, len := n } → (s.queue q).state = .stopping → (s.queue q).outstanding ≤ 1 →
    ∃ t more, exec (.headerSlotReturn i .hostError) s = .next t ∧ t.port.tags[i] = .free
      ∧ (t.queue q).state = .disabled ∧ (t.queue q).haltReason = .fetchError ∧ (t.queue q).outstanding = 0
      ∧ (t.queue q).subHead = (s.queue q).subHead ∧ t.regs.haltedMask.getLsbD (q.val - 1) = false
      ∧ t.posted = s.posted ++ (if s.regs.irqEnable then [PostedWrite.message 0] else []) ++ more
      ∧ (s.control.state ≠ .held → t.bus = s.bus) ∧ t.targets = s.targets ∧ t.pool.memory = s.pool.memory ∧ t.clock = s.clock)
  ∧ (∀ (s : State) (i : TagId) (q : QueueId) (c : CtxId) (a : HostAddr) (n : Nat), q ≠ 0 →
    s.Awaits i { ref := .slot q c 0, addr := a, len := n } →
    let u := ((s.setTag i .free).modCtx c fun _ => {}).modQueue q fun r => { r with
      outstanding := r.outstanding - 1, reserved := r.reserved - 1 }
    exec (.headerSlotReturn i .hostError) s =
      .next ((((((u.setFetch q none).fenceRelease q).halt q .fetchError).queueTest q).fetchEvaluate).settle))
  ∧ (∀ (s : State) (q : QueueId) (why : HaltReason), q ≠ 0 → s.regs.resetting = false →
    let t := s.halt q why
    t.queue q = { s.queue q with
        state := if (s.queue q).state = .active then .halted else (s.queue q).state, haltReason := why }
      ∧ t.queue 0 = { s.queue 0 with messageDue := !s.regs.irqEnable } ∧ (∀ p, p ≠ 0 → p ≠ q → t.queue p = s.queue p)
      ∧ t.regs = { s.regs with haltedMask := s.regs.haltedMask ||| (1#8 <<< (q.val - 1)) }
      ∧ t.posted = s.posted ++ (if s.regs.irqEnable then [PostedWrite.message 0] else [])
      ∧ t = { s with queues := t.queues, regs := t.regs, port := { s.port with
          issueQueue := t.port.issueQueue, held := t.port.held } })

/-- HEADER_SLOT_RETURN of a record of two to four slots that the host has offered whole (R4, R153, R154): the context
takes the header's fields, the fetch goes to EXTENSION with one slot loaded, and one read for each extension slot is
listed, in ascending order modulo the ring; nothing else changes. Of a one-slot record (R153, R155): the submission
head advances by one slot, the tag is FREE, and the context goes on as a loaded record does (R5); so for a header whose
slot count is outside 1 to 4, which ends the load as a one-slot record (R152). That a host address wraps is the model's
choice (log 24). -/
def Obligations.HeaderSlotLoadsRecord : Prop :=
  (∀ (s : State) (i : TagId) (q : QueueId) (c : CtxId) (a : HostAddr) (f : FetchRecord) (slot : List Byte),
      s.Awaits i { ref := .slot q c 0, addr := a, len := 64 } → slot.length = 64 → s.fetchOf q = some f →
      let h := parseHeader slot
      let r := s.queue q
      2 ≤ h.slotCount → h.slotCount ≤ 4 → h.slotCount ≤ (r.subTail + r.subSize - f.firstSlot) % r.subSize →
      ∃ t, exec (.headerSlotReturn i (.data slot)) s = .next t
        ∧ t = (((s.setTag i .free).modCtx c fun x => { x with
              tag := h.tag, cookie := h.cookie, continues := h.continues, fence := h.fence, irqNow := h.irqNow
              lockMask := h.lockMask, headerLoaded := true, opCount := h.opCount, slotCount := h.slotCount
              returnIndex := h.returnIndex, slots := [(0, slot)] }).setFetch q (some {
              context := c, firstSlot := f.firstSlot, phase := .extension, expected := h.slotCount, loaded := 1 })).modPort
            fun p => { p with fetcherReads := p.fetcherReads ++ (List.range (h.slotCount - 1)).map fun j =>
              { ref := .slot q c (j + 1)
                addr := r.subBase + BitVec.ofNat 64 (64 * ((f.firstSlot + j + 1) % r.subSize)), len := 64 } })
  ∧ (∀ (s : State) (i : TagId) (q : QueueId) (c : CtxId) (a : HostAddr) (f : FetchRecord) (slot : List Byte),
      q ≠ 0 → s.Awaits i { ref := .slot q c 0, addr := a, len := 64 } → slot.length = 64 → s.fetchOf q = some f →
      let h := parseHeader slot
      (h.slotCount = 1 ∧ 1 ≤ ((s.queue q).subTail + (s.queue q).subSize - f.firstSlot) % (s.queue q).subSize)
        ∨ h.slotCount = 0 ∨ 4 < h.slotCount →
      let loaded := ((((s.setTag i .free).modCtx c fun x => { x with
          tag := h.tag, cookie := h.cookie, continues := h.continues, fence := h.fence, irqNow := h.irqNow
          lockMask := h.lockMask, headerLoaded := true, opCount := h.opCount, slotCount := h.slotCount
          returnIndex := h.returnIndex, slots := [(0, slot)] }).modQueue q fun r => { r with
            subHead := (r.subHead + 1) % r.subSize }).setFetch q none)
      ∃ t, exec (.headerSlotReturn i (.data slot)) s = .next t ∧ t.port.tags[i] = .free
        ∧ t = (loaded.loadOutcome c .allLoaded).fetchEnded q
        ∧ (t.queue q).subHead = ((s.queue q).subHead + 1) % (s.queue q).subSize
        ∧ (∀ p, p ≠ q → (t.queue p).subHead = (s.queue p).subHead)
        ∧ t.pool.memory = s.pool.memory ∧ t.clock = s.clock ∧ t.pending = s.pending ∧ t.targets = s.targets
        ∧ (∀ j : TagId, j ≠ i → t.port.tags[j] = s.port.tags[j])
        ∧ t.regs = { s.regs with haltedMask := t.regs.haltedMask })
  ∧ (∀ slot : List Byte,
      let byte (i : Nat) := slot.getD i 0
      parseHeader slot = {
        tag := byte 1 ++ byte 0, opCount := (byte 2).toNat % 16, slotCount := (byte 2).toNat / 16 % 8
        continues := (byte 3).getLsbD 0, fence := (byte 3).getLsbD 1, irqNow := (byte 3).getLsbD 2
        returnIndex := (byte 4).toNat % 16, lockMask := byte 7 ++ byte 6
        cookie := byte 11 ++ byte 10 ++ (byte 9 ++ byte 8) })

/-- EXTENSION_SLOT_RETURN of a slot that is not the record's last (R154): slots loaded rises by one, reads in flight
falls by one, the slot is kept with its number, and nothing else changes. Of the last (R155): the submission head
advances by the slots expected, and the context goes on as a loaded record. With a host error, or once one is marked: the
error is marked, the record's listed reads are dropped and the data discarded; nothing else happens while a read of the
record is in flight. With none in flight the context is COMPLETING with HOST_READ_ERROR, or ABORTED when an abort is
pending; an ACTIVE queue is HALTED with FETCH_ERROR and its mask bit, and its head stays; a STOPPING one takes the reason,
the mask bit and the notice and stays STOPPING, since it still holds the context (R154, R134, R135).
An op's fields lie where the layouts put them (11.2, R185). A loaded record (R5): aborted, the context is COMPLETING with ABORTED; failing a record-level check (R27), with
MALFORMED_RECORD; else op 1 is current (R8), and the context is in FENCE_WAIT if it has FENCE and an older context of its
queue is not FREE (R6), else it joins the lock waiters if its lock mask is not empty, else it is PREPARING (R7). -/
def Obligations.ExtensionSlotsLoadRecord : Prop :=
  (∀ (s : State) (i : TagId) (q : QueueId) (c : CtxId) (n : Nat) (a : HostAddr) (f : FetchRecord) (slot : List Byte),
      s.Awaits i { ref := .slot q c (n + 1), addr := a, len := 64 } → slot.length = 64 → s.fetchOf q = some f →
      f.error = false → f.loaded + 1 ≠ f.expected →
      exec (.extensionSlotReturn i (.data slot)) s =
        .next (((s.setTag i .free).setFetch q (some { f with loaded := f.loaded + 1, inFlight := f.inFlight - 1 })).modCtx c
          fun x => { x with slots := x.slots ++ [(n + 1, slot)] }))
  ∧ (∀ (s : State) (i : TagId) (q : QueueId) (c : CtxId) (n : Nat) (a : HostAddr) (f : FetchRecord) (slot : List Byte),
      q ≠ 0 → s.Awaits i { ref := .slot q c (n + 1), addr := a, len := 64 } → slot.length = 64 → s.fetchOf q = some f →
      f.error = false → f.loaded + 1 = f.expected →
      let loaded := ((((s.setTag i .free).modCtx c fun x => { x with slots := x.slots ++ [(n + 1, slot)] }).modQueue q
        fun r => { r with subHead := (r.subHead + f.expected) % r.subSize }).setFetch q none)
      ∃ t, exec (.extensionSlotReturn i (.data slot)) s = .next t ∧ t.port.tags[i] = .free
        ∧ t = (loaded.loadOutcome c .allLoaded).fetchEnded q
        ∧ (t.queue q).subHead = ((s.queue q).subHead + f.expected) % (s.queue q).subSize
        ∧ (∀ p, p ≠ q → (t.queue p).subHead = (s.queue p).subHead)
        ∧ t.pool.memory = s.pool.memory ∧ t.clock = s.clock ∧ t.pending = s.pending ∧ t.targets = s.targets
        ∧ (∀ j : TagId, j ≠ i → t.port.tags[j] = s.port.tags[j])
        ∧ t.regs = { s.regs with haltedMask := t.regs.haltedMask })
  ∧ (∀ (s : State) (i : TagId) (q : QueueId) (c : CtxId) (n : Nat) (a : HostAddr) (f : FetchRecord) (x : Response),
      q ≠ 0 → s.Awaits i { ref := .slot q c (n + 1), addr := a, len := 64 } → responseComplete x 64 = true →
      s.fetchOf q = some f → f.error = true ∨ x = .hostError →
      (f.inFlight ≠ 1 → f.inFlight ≠ 0 → exec (.extensionSlotReturn i x) s =
        .next (((s.setTag i .free).setFetch q (some { f with error := true, inFlight := f.inFlight - 1 })).modPort fun p =>
          { p with fetcherReads := p.fetcherReads.filter fun r => !r.ref.isSlotOf c }))
      ∧ (f.inFlight = 1 → (s.queue q).state = .active ∨ ((s.queue q).state = .stopping ∧ 0 < (s.queue q).outstanding) →
        (s.queue q).subHead < (s.queue q).subSize →
        (∀ w ∈ s.locks.waiters, w.context ≠ c) →
        ∃ t, exec (.extensionSlotReturn i x) s = .next t ∧ t.port.tags[i] = .free
          ∧ t.queue q = { s.queue q with
              state := if (s.queue q).state = .active then .halted else .stopping, haltReason := .fetchError }
          ∧ t.regs = { s.regs with haltedMask := s.regs.haltedMask ||| (1#8 <<< (q.val - 1)) }
          ∧ t.posted = s.posted ++ (if s.regs.irqEnable then [PostedWrite.message 0] else [])
          ∧ (∀ r ∈ t.port.fetcherReads, (r ∈ s.port.fetcherReads ∧ r.ref.isSlotOf c = false) ∨ r.ref.isHeader = true)
          ∧ t.fetchOf q = none ∧ (t.ctx c).state = .completing
          ∧ (∃ e, (t.ctx c).entry = some e
              ∧ ((s.ctx c).abortPending = false → e.status = .hostReadError ∧ e.first = some .hostReadError)
              ∧ ((s.ctx c).abortPending = true → e.status = .aborted))
          ∧ t.bus = s.bus ∧ t.targets = s.targets ∧ t.pool.memory = s.pool.memory ∧ t.clock = s.clock))
  ∧ (∀ (slotCount opCount returnIndex : Nat) (ops : List Op), recordOk slotCount opCount returnIndex ops = true ↔
      1 ≤ opCount ∧ opCount / 4 + 1 = slotCount ∧ returnIndex ≤ opCount
        ∧ ∀ o ∈ ops, (o.ret = true → (o.kind = .read ∧ o.length ≤ 8) ∨ o.kind = .poll)
          ∧ (o.inline = true → o.length ≤ 8) ∧ (o.kind = .copy → o.target2Byte.toNat ≤ 15))
  ∧ (∀ (s : State) (c : CtxId),
      let x := s.ctx c
      let ops := recordOps x.slots x.opCount x.returnIndex
      let passes := recordOk x.slotCount x.opCount x.returnIndex ops
      let t := s.loadOutcome c .allLoaded
      let begun (state : CtxState) (prep : Prep) : Context := { x with
        state, prep, ops, slots := [], opIndex := some 1, offset := 0, retries := 0, releases := 0, polls := 0, begun := false
        targetReset := false, recheck := false, checking := false, timer := none, segment := none, staged := none
        prof1 := none, prof2 := none, gathered := 0 }
      let fenced := x.fence = true ∧ ∃ d, (s.ctx d).state ≠ .free ∧ (s.ctx d).queue = x.queue
        ∧ older (s.ctx d).seq x.seq = true
      (x.abortPending = true → (t.ctx c).state = .completing ∧ ∃ e, (t.ctx c).entry = some e ∧ e.status = .aborted)
      ∧ (x.abortPending = false → passes = false → (t.ctx c).state = .completing
          ∧ ∃ e, (t.ctx c).entry = some e ∧ e.status = .malformedRecord ∧ e.first = some .malformedRecord)
      ∧ (x.abortPending = false → passes = true → fenced → t = s.modCtx c fun _ => begun .fenceWait x.prep)
      ∧ (x.abortPending = false → passes = true → ¬ fenced → x.lockMask = 0 →
          t = s.modCtx c fun _ => begun .preparing (.run .start))
      ∧ (x.abortPending = false → passes = true → ¬ fenced → x.lockMask ≠ 0 →
          t = (s.modCtx c fun _ => begun x.state x.prep).lockJoin c))
  ∧ (∀ (slots : List (Nat × List Byte)) (opCount returnIndex k : Nat) (slot : List Byte), 1 ≤ k → k ≤ opCount →
      slots.find? (fun p => p.1 == if k ≤ 3 then 0 else k / 4) = some (if k ≤ 3 then 0 else k / 4, slot) →
      let byte (i : Nat) := slot.getD (16 * (k % 4) + i) 0
      let code := (byte 0).toNat % 8
      let half (i : Nat) := byte (i + 1) ++ byte i
      let word (i : Nat) := half (i + 2) ++ half i
      ∃ o, (recordOps slots opCount returnIndex)[k - 1]? = some o
        ∧ o.target.val = (byte 0).toNat / 16 ∧ o.addr = byte 3 ++ half 1 ∧ (o.ret = true ↔ returnIndex = k)
        ∧ (o.kind = .write ↔ code = 0) ∧ (o.kind = .read ↔ code = 1) ∧ (o.kind = .fill ↔ code = 2)
        ∧ (o.kind = .copy ↔ code = 3) ∧ (o.kind = .drain ↔ code = 4) ∧ (o.kind = .poll ↔ 5 ≤ code)
        ∧ (o.inline = true ↔ code = 0 ∧ (byte 0).getLsbD 3 = true)
        ∧ (code ≤ 4 → o.length = (half 4).toNat + 1) ∧ (code ≤ 4 → code ≠ 3 → o.data = word 12 ++ word 8)
        ∧ (code = 3 → o.addr2 = byte 10 ++ half 8 ∧ o.target2Byte = byte 11)
        ∧ (5 ≤ code → o.length = 2 ^ (code - 5) ∧ o.invert = (byte 0).getLsbD 3 ∧ o.interval = (half 4).toNat
            ∧ o.attemptLimit = max 1 (half 6).toNat ∧ o.mask = word 8 ∧ o.matchValue = word 12))

/-- PROFILE_LOAD_RETURN with a profile, the row not cancelled (R93, R94): the entry chosen is filled with the target and
the profile and becomes the most recently used, and every other entry stands; the row goes to NONE, and each waiter without
an abort pending takes its copy, to be judged; a context whose op names the evicted target is marked. With a host error
(R95): no entry changes, the row goes to NONE, and each such waiter's op fails PROFILE_READ_ERROR. Of a cancelled load
(R96) no entry is filled and no waiter fails, whatever returned: with such a waiter left the row is LOADING with the mark
clear and those waiters, and a new read is listed; else it goes to NONE. Then preparations go on. A lookup that hits takes
a copy and makes the entry the most recently used; one that misses joins the row, and lists a read if the row was NONE
(R90 to R92). An invalidated entry leaves the order (R90).
A profile is read from its layout (11.2, R185). -/
def Obligations.ProfileLoadFillsUnlessCancelled : Prop :=
  (∀ (s : State) (i : TagId) (k : TargetId) (a : HostAddr) (bytes : List Byte),
      s.Awaits i { ref := .profile k, addr := a, len := 32 } → bytes.length = 32 → (s.cache.rows[k]).cancelled = false →
      ∃ t, exec (.profileLoadReturn i (.data bytes)) s = .next t
        ∧ t.cache.entries[s.fillPlace] = some { target := k, profile := parseProfile bytes }
        ∧ (∀ e : EntryId, e ≠ s.fillPlace → t.cache.entries[e] = s.cache.entries[e])
        ∧ t.outside = (s.setTag i .free).outside)
  ∧ (∀ (s : State) (i : TagId) (k : TargetId) (a : HostAddr) (r : Response),
      s.Awaits i { ref := .profile k, addr := a, len := 32 } → responseComplete r 32 = true →
      (s.cache.rows[k]).cancelled = true →
      ∃ t, exec (.profileLoadReturn i r) s = .next t ∧ t.cache.entries = s.cache.entries
        ∧ t.outside = (s.setTag i .free).outside)
  ∧ (∀ (s : State) (i : TagId) (k : TargetId) (a : HostAddr) (r : Response),
      s.Awaits i { ref := .profile k, addr := a, len := 32 } → responseComplete r 32 = true →
      let row := s.cache.rows[k]
      let live (c : CtxId) := c ∈ row.waiters ∧ (s.ctx c).abortPending = false
      ∃ w, exec (.profileLoadReturn i r) s = .next w.settle ∧ (∀ j : TargetId, j ≠ k → w.cache.rows[j] = s.cache.rows[j])
        ∧ (row.cancelled = true → w.cache.recency = s.cache.recency ∧ (∀ c, live c → w.ctx c = s.ctx c)
          ∧ ((∃ c, live c) → (w.cache.rows[k]).loading = true ∧ (w.cache.rows[k]).cancelled = false
              ∧ (∀ c, c ∈ (w.cache.rows[k]).waiters ↔ live c)
              ∧ w.port.loaderReads = s.port.loaderReads
                ++ [{ ref := .profile k, addr := s.regs.profileTable + BitVec.ofNat 64 (32 * k.val), len := 32 }])
          ∧ ((¬ ∃ c, live c) → w.cache.rows[k] = {} ∧ w.port.loaderReads = s.port.loaderReads))
        ∧ (row.cancelled = false → w.cache.rows[k] = {} ∧ w.port.loaderReads = s.port.loaderReads
          ∧ (r = .hostError → w.cache = { s.cache with rows := w.cache.rows }
              ∧ (row.waiters.Nodup → ∀ c, live c → (w.ctx c).opsFailed = (s.ctx c).opsFailed + 1
                  ∧ (w.ctx c).firstError = some ((s.ctx c).firstError.getD .profileReadError))
              ∧ (∀ c, row.waiters = [c] → live c →
                  w = ((s.setTag i .free).modRow k fun _ => {}).endOp c (some .profileReadError) false))
          ∧ (∀ bytes, r = .data bytes →
              w.cache.recency = s.fillPlace :: s.cache.recency.filter (fun e => e != s.fillPlace)
              ∧ ∀ (c : CtxId) (second : Bool), live c → (s.ctx c).prep = .waitProfile second →
                  let evicted := (s.cache.entries[s.fillPlace]).any fun old => (s.ctx c).names old.target
                  w.ctx c = { s.ctx c with
                    prof1 := if second then (s.ctx c).prof1 else some (parseProfile bytes)
                    prof2 := if second then some (parseProfile bytes) else (s.ctx c).prof2
                    prep := .run (.judge second), recheck := (s.ctx c).recheck || evicted })))
  ∧ (∀ (s : State) (c : CtxId) (k : TargetId) (second : Bool),
      (∀ e f, s.cached k = some e → s.cache.entries[e] = some f →
        s.lookup c k second =
          (s.modCache fun h => { h with recency := e :: h.recency.filter fun d => d != e }).modCtx c fun x => { x with
            prof1 := if second then x.prof1 else some f.profile, prof2 := if second then some f.profile else x.prof2
            prep := .run (.judge second) })
      ∧ (s.cached k = none → (s.cache.rows[k]).loading = true →
          s.lookup c k second = (s.modRow k fun r => { r with waiters := r.waiters ++ [c] }).setPrep c (.waitProfile second))
      ∧ (s.cached k = none → (s.cache.rows[k]).loading = false →
          s.lookup c k second =
            (((s.modRow k fun _ => { loading := true, cancelled := false, waiters := [c] }).modPort fun h =>
              { h with loaderReads := h.loaderReads
                  ++ [{ ref := .profile k, addr := s.regs.profileTable + BitVec.ofNat 64 (32 * k.val), len := 32 }] }).setPrep c
              (.waitProfile second)))
      ∧ (s.invalidate k).cache.recency
          = s.cache.recency.filter fun e => !(s.cache.entries[e]).any fun f => f.target == k)
  ∧ (∀ bytes : List Byte,
      let byte (i : Nat) := bytes.getD i 0
      let p := parseProfile bytes
      p.valid = (byte 0).getLsbD 0 ∧ p.bus.cls = (byte 0).extractLsb' 1 2 ∧ p.bus.responses = (byte 0).getLsbD 3
        ∧ p.bus.closeAfter = (byte 0).getLsbD 4 ∧ p.writeProtect = (byte 0).getLsbD 5 ∧ p.bus.port = byte 1
        ∧ p.bus.window = byte 2 ∧ p.bus.setup + 16 * p.bus.strobe = (byte 3).toNat ∧ p.bus.setup < 16
        ∧ p.bus.recovery + 16 * p.bus.turnOff = (byte 4).toNat ∧ p.bus.recovery < 16 ∧ p.retryLimit = (byte 5).toNat % 16
        ∧ p.baseDelay = (byte 6).toNat ∧ p.bus.holdLimit = (byte 9 ++ byte 8).toNat % 4096)

/-- DATA_READ_RETURN with bytes for the chunk of a context's current or staged segment: they go to their place in the
chunk and every other byte of staging memory stands (R125); a host error, or data that a longer cut overtook (R124),
leaves the staging memory as it was. The tag is FREE in either case, and nothing else changes outside the contexts,
chunks, locks, profile cache and the reads not yet issued. The requester (R125, R33): a host error drops the segment's
listed reads; when no read of the segment is awaited any more its data have arrived, or its host read has failed if one
returned an error. A context that waits at step 7 goes on with it when its current segment's read is no longer pending
(step 7 itself: PreparationTakesItsSteps). Overtaken data: once none is in flight the segment is read anew, or has failed.
A read of a chunk whose segment has ended may free it (R122); an aborted, failing or COMPLETING context uses none. One that
waited for its reads starts again, or completes ABORTED, when none is in flight (R23, R24). -/
def Obligations.DataReadPlacesBytes : Prop :=
  (∀ (s : State) (i : TagId) (c : CtxId) (k : ChunkId) (p n : Nat) (a : HostAddr) (bytes : List Byte) (h : ChunkHold)
      (g : Segment),
    s.MemoryCanonical → s.Awaits i { ref := .data c k p, addr := a, len := n } → bytes.length = n →
    s.pool.chunks[k] = some h → g.reread = false → (s.ctx c).ignoresReads = false →
    (h.role = .current ∧ (s.ctx c).segment = some g) ∨ (h.role = .staged ∧ (s.ctx c).staged = some g) →
    ∃ t, exec (.dataReadReturn i (.data bytes)) s = .next t
      ∧ (∀ j (hj : j < bytes.length), t.pool.memory.read (256 * k.val + p + j) = bytes[j])
      ∧ (∀ x, x < 256 * k.val + p ∨ 256 * k.val + p + n ≤ x → t.pool.memory.read x = s.pool.memory.read x)
      ∧ t.outside = { (s.setTag i .free).outside with memory := t.pool.memory })
  ∧ (∀ (s : State) (i : TagId) (c : CtxId) (k : ChunkId) (p n : Nat) (a : HostAddr),
    s.Awaits i { ref := .data c k p, addr := a, len := n } →
    (∃ t, exec (.dataReadReturn i .hostError) s = .next t ∧ t.outside = (s.setTag i .free).outside)
    ∧ (∀ (bytes : List Byte) (h : ChunkHold) (g : Segment), bytes.length = n → s.pool.chunks[k] = some h →
        (h.role = .current ∧ (s.ctx c).segment = some g) ∨ (h.role = .staged ∧ (s.ctx c).staged = some g) →
        g.reread = true →
        ∃ t, exec (.dataReadReturn i (.data bytes)) s = .next t ∧ t.outside = (s.setTag i .free).outside))
  ∧ (∀ (s : State) (i : TagId) (c : CtxId) (k : ChunkId) (p n : Nat) (a : HostAddr) (r : Response) (h : ChunkHold),
    s.Awaits i { ref := .data c k p, addr := a, len := n } → responseComplete r n = true → s.pool.chunks[k] = some h →
    let x := s.ctx c
    let u := s.setTag i .free
    let w := (u.chunkRead c k p r).afterDataRead c
    exec (.dataReadReturn i r) s = .next w.settle
    ∧ (h.role = .ended → u.chunkRead c k p r = u.freeIfDone k)
    ∧ (h.role ≠ .ended → x.ignoresReads = true → u.chunkRead c k p r = u)
    ∧ (∀ g, x.ignoresReads = false →
        (h.role = .current ∧ x.segment = some g) ∨ (h.role = .staged ∧ x.staged = some g) →
        let lost := g.readError || r == .hostError
        let others := u.ReadsInFlight (·.isChunk k)
        let listed := ∃ q ∈ s.port.moverReads, q.ref.isChunk k = true
        ∃ now : Segment,
          (g.reread = false → now = { g with readError := lost, hostRead := now.hostRead }
            ∧ (others ∨ (r ≠ .hostError ∧ listed) → now.hostRead = g.hostRead)
            ∧ (¬ others → r = .hostError ∨ ¬ listed → now.hostRead = if lost then .failed else .arrived)
            ∧ w.port.moverReads = if r = .hostError then s.port.moverReads.filter (fun q => !q.ref.isChunk k)
                else s.port.moverReads)
          ∧ (g.reread = true → (others → now = { g with readError := lost } ∧ w.port = u.port)
            ∧ (¬ others → lost = true → now = { g with readError := true, hostRead := .failed, reread := false }
                ∧ w.port = u.port)
            ∧ (¬ others → lost = false → ∀ o, x.op = some o →
                now = { g with hostRead := .pending, readError := false, reread := false }
                  ∧ w.port = { u.port with moverReads := s.port.moverReads ++ segmentReads c k o g }))
          ∧ (let y := if h.role = .current then { x with segment := some now } else { x with staged := some now }
             let goesOn := x.state = .preparing ∧ x.prep = .waitData ∧ ∀ z, y.segment = some z → z.hostRead ≠ .pending
             (goesOn → w.ctx c = { y with prep := .run .data }) ∧ (¬ goesOn → w.ctx c = y)
              ∧ ∀ d, d ≠ c → w.ctx d = s.ctx d)))
  ∧ (∀ (s : State) (c : CtxId), (s.ctx c).state = .preparing → (s.ctx c).prep = .waitReads →
      let waits := s.ReadsInFlight (·.isDataOf c)
      (waits → s.afterDataRead c = s)
      ∧ (¬ waits → (s.ctx c).abortPending = false → s.afterDataRead c = s.setPrep c (.run .start))
      ∧ (¬ waits → (s.ctx c).abortPending = true → s.afterDataRead c = s.completeAborted c))

/-- HOST_READ_TIMEOUT: the clock reaches 10,000 µs after the issue and the tag becomes STALE then; while RESETTING is
set no requester is told, and while it is clear the requester is handed a host error, as by a read that returns one: a
return of each kind frees its tag and hands the response to the requester the read names. STALE_TAG_EXPIRY and STALE_RESPONSE: a STALE tag becomes FREE, at once by a response and
50,000 µs after it became STALE without one; a response for a FREE tag is discarded (R160). That an event moves the
clock to its due time is the model's choice (log 3). While RESETTING is set a response frees its tag and reaches no
requester (R160). -/
def Obligations.TagsReturnTimeOutAndExpire : Prop :=
  (∀ (s : State) (i : TagId) (r : ReadReq) (issued : Nat), s.port.tags[i] = .inFlight r issued →
      let u := s.untilUs (issued + 10000)
      ∃ t, exec (.hostReadTimeout i) s = .next t ∧ t.port.tags[i] = .stale u.now ∧ issued + 10000 ≤ u.now
        ∧ (∀ j : TagId, j ≠ i → t.port.tags[j] = s.port.tags[j]) ∧ t.clock = u.clock ∧ t.pool.memory = s.pool.memory
        ∧ (s.regs.resetting = true → t = u.setTag i (.stale u.now))
        ∧ (s.regs.resetting = false → t = (u.setTag i (.stale u.now)).handResponse r.ref .hostError))
  ∧ (∀ (s : State) (i : TagId),
      (∀ since, s.port.tags[i] = .stale since →
        exec (.staleTagExpiry i) s = .next (({ s with clock := max s.clock (50 * (since + 50000)) }).setTag i .free)
          ∧ exec (.staleResponse i) s = .next (s.setTag i .free))
      ∧ (s.port.tags[i] = .free → exec (.staleResponse i) s = .next s))
  ∧ (∀ (s : State) (i : TagId) (r : ReadReq) (x : Response), s.Awaits i r → responseComplete x r.len = true →
    let handed := (s.setTag i .free).handResponse r.ref x
    (r.ref.isHeader = true → exec (.headerSlotReturn i x) s = .next handed)
    ∧ (r.ref.isExtension = true → exec (.extensionSlotReturn i x) s = .next handed)
    ∧ (r.ref.isProfile = true → exec (.profileLoadReturn i x) s = .next handed)
    ∧ (r.ref.isData = true → exec (.dataReadReturn i x) s = .next handed)
    ∧ (s.controlTag = some i →
        exec .controlReadError s = .next ((s.setTag i .free).handResponse .control .hostError)))
  ∧ (∀ (s : State) (i : TagId) (r : ReadReq) (x : Response), s.inFlight i = some r → s.regs.resetting = true →
    responseComplete x r.len = true →
    (r.ref.isHeader = true → exec (.headerSlotReturn i x) s = .next (s.setTag i .free))
    ∧ (r.ref.isExtension = true → exec (.extensionSlotReturn i x) s = .next (s.setTag i .free))
    ∧ (r.ref.isProfile = true → exec (.profileLoadReturn i x) s = .next (s.setTag i .free))
    ∧ (r.ref.isData = true → exec (.dataReadReturn i x) s = .next (s.setTag i .free)))

/-! ### The target bus -/

/-- The locality step (R60): while the locality run count is below 8 and an eligible candidate would hit the open window,
the oldest such candidate is granted and only the locality run count rises; otherwise the grant is the round-robin step's,
and the locality run count becomes 0. -/
def Obligations.LocalityStepFirst : Prop :=
  ∀ s : State,
    let hits := (List.finRange 16).filter fun c => s.eligible c && s.wouldHit c
    (s.bus.localityRun < 8 → hits ≠ [] → ∃ c, s.oldest hits = some c ∧ c ∈ hits
      ∧ s.arbiterPick = some (c, s.bus.lastQueue, s.bus.queueRun, s.bus.localityRun + 1))
    ∧ (8 ≤ s.bus.localityRun ∨ hits = [] →
        s.arbiterPick = s.roundRobinPick.map fun p => (p.1, p.2.1, p.2.2, 0))
    ∧ (s.bus.window = none → hits = [])

/-- The oldest of some contexts is one of them, and none of them is older, provided their sequence numbers lie within half
the numbers there are (R2, R62). -/
def Obligations.OldestIsOldest : Prop :=
  ∀ (s : State) (l : List CtxId) (b : BitVec 32) (c : CtxId), (∀ d ∈ l, ((s.ctx d).seq - b).toNat < 2 ^ 31) →
    s.oldest l = some c → c ∈ l ∧ ∀ d ∈ l, older (s.ctx d).seq (s.ctx c).seq = false

/-- The round-robin step (R61): the last granted queue again while its run count is below its weight and it has an
eligible candidate, else the first queue with one in order from L + 1 to 8 and then from 1 to L; an eligible candidate
of a transaction queue is always found. -/
def Obligations.RoundRobinTurnsOverQueues : Prop :=
  (∀ l : Nat, l ≤ 8 → Sys2Proof.Machine.rotation l = List.range' (l + 1) (8 - l) ++ List.range' 1 l)
  ∧ ∀ s : State,
    (8 ≤ s.bus.localityRun ∨ s.bus.window = none →
      s.arbiterPick = s.roundRobinPick.map fun p => (p.1, p.2.1, p.2.2, 0))
    ∧ (∀ c, s.bus.lastQueue ≠ 0 → s.bus.queueRun < s.weightOf s.bus.lastQueue → s.oldestOf s.bus.lastQueue = some c →
      s.roundRobinPick = some (c, s.bus.lastQueue, s.bus.queueRun + 1))
    ∧ (s.bus.lastQueue = 0 ∨ s.weightOf s.bus.lastQueue ≤ s.bus.queueRun ∨ s.oldestOf s.bus.lastQueue = none →
      s.roundRobinPick = (Sys2Proof.Machine.rotation s.bus.lastQueue).findSome? fun q => (s.oldestOf q).map fun c => (c, q, 1))
    ∧ (∀ (c : CtxId) (q : QueueId), s.bus.lastQueue ≤ 8 → q ≠ 0 → s.eligible c = true → (s.ctx c).queue = some q →
      s.roundRobinPick ≠ none)
    ∧ (∀ q : QueueId, s.weightOf q.val = (s.queue q).weight
        ∧ s.oldestOf q.val = s.oldest ((List.finRange 16).filter fun c => s.eligible c && (s.ctx c).queue == some q))

/-- BUS_GRANT: the context granted is ON_BUS and has made its claim for the next segment (R14, R121), the arbiter's counts
take the values of the step, and the access record is filled from its ready segment and profile; a turn-off wait keeps the
window, a window hit begins its beats with the strobe of beat 1 on the pins, and any other access begins its open phase with
its target's select alone (R45 to R48). No other context changes. An access that is no whole number of beats has a free
number of them (log 9). A window hit (R47): the window is open on the access's target and window base, and the profile
allows a held window; the base is the start rounded down to the window's size on a windowed MEMORY target, else the start.
Who may be granted (R59): a BUS_READY context whose target is free or its own in the Lock Table and not QUARANTINED, while
the bus is IDLE, no pulse is pending and RESETTING is clear.
TURN_OFF_WAIT_END: the clock reaches the record's end time and the first phase begins, with the same pins and window as at a
grant (R46, R47). Close-pending clears at an open phase (R48), but one set in the access's own turn-off wait
stands, so that the window closes at its end (R58, R101; the model's reading, log 8). That the event moves the clock to
its due time is the model's choice (log 3). -/
def Obligations.GrantBeginsAccess : Prop :=
  (∀ (s : State) (c : CtxId) (l r n : Nat) (o : Op) (g : Segment), s.mayGrant = true →
    s.arbiterPick = some (c, l, r, n) → (s.ctx c).op = some o → (s.ctx c).segment = some g →
    let p := ((s.ctx c).profileOf g.half).bus
    let waits := ∃ k e, s.bus.turnOff = some (k, e) ∧ k ≠ g.target ∧ s.clock < e
    ∃ t a, exec .busGrant s = .next t ∧ t.bus.state = .access a
      ∧ (t.ctx c).state = .onBus ∧ (∀ d : CtxId, d ≠ c → t.ctx d = s.ctx d)
      ∧ (let u := (s.modCtx c fun x => { x with state := .onBus }).claimSecond c
         t.contexts = u.contexts ∧ t.pool = u.pool ∧ t.port = u.port)
      ∧ t.bus.lastQueue = l ∧ t.bus.queueRun = r ∧ t.bus.localityRun = n
      ∧ a = { owner := c, half := g.half, target := g.target, direction := o.direction g.half, start := g.addr
              beats := accessBeats o p g.len, snapshot := p, phase := a.phase }
      ∧ (waits → a.phase = .turnOffWait ∧ t.bus.window = s.bus.window ∧ t.bus.pins = s.bus.pins)
      ∧ (¬ waits → s.windowHit g.target p g.addr = true → a.phase = .beats ∧ t.bus.window = s.bus.window
          ∧ t.StrobesBeat a o g)
      ∧ (¬ waits → s.windowHit g.target p g.addr = false → a.phase = .openPhase ∧ t.bus.window = none
          ∧ t.bus.closePending = false
          ∧ t.bus.pins.tsel = BitVec.ofNat 16 (2 ^ g.target.val) ∧ t.bus.pins.ta = windowBase p g.addr
          ∧ t.bus.pins.trd = false ∧ t.bus.pins.twr = false)
      ∧ t.queues = s.queues ∧ t.regs = s.regs ∧ t.targets = s.targets ∧ t.locks = s.locks ∧ t.cache = s.cache
      ∧ t.pool.memory = s.pool.memory ∧ t.posted = s.posted ∧ t.clock = s.clock)
  ∧ (∀ (s : State) (a : Access) (k : TargetId) (e : Nat), s.bus.state = .access a → a.phase = .turnOffWait →
    s.bus.turnOff = some (k, e) →
    ∃ t, exec .turnOffWaitEnd s = .next t ∧ t.clock = max s.clock e
      ∧ t.bus.state = .access { a with
          phase := if s.windowHit a.target a.snapshot a.start then .beats else .openPhase, holdTimer := none }
      ∧ (s.windowHit a.target a.snapshot a.start = true → t.bus.window = s.bus.window
          ∧ ∀ o g, (s.ctx a.owner).op = some o → (s.ctx a.owner).segment = some g → t.StrobesBeat a o g)
      ∧ (s.windowHit a.target a.snapshot a.start = false → t.bus.window = none
          ∧ t.bus.pins.tsel = BitVec.ofNat 16 (2 ^ a.target.val) ∧ t.bus.pins.ta = windowBase a.snapshot a.start
          ∧ t.bus.pins.trd = false ∧ t.bus.pins.twr = false)
      ∧ t.contexts = s.contexts ∧ t.queues = s.queues ∧ t.regs = s.regs ∧ t.port = s.port ∧ t.pool = s.pool
      ∧ t.bus.turnOff = s.bus.turnOff ∧ t.bus.closePending = s.bus.closePending)
  ∧ (∀ (s : State) (t : TargetId) (p : BusProfile) (start : TargetAddr),
      let windowed := p.cls = 0 ∧ 8 ≤ p.window.toNat ∧ p.window.toNat ≤ 20
      (s.windowHit t p start = true ↔ (∃ w, s.bus.window = some w ∧ w.target = t ∧ w.base = windowBase p start)
          ∧ p.closeAfter = false ∧ (windowed ∨ p.cls = 1))
      ∧ (windowed → (windowBase p start).toNat = start.toNat / 2 ^ p.window.toNat * 2 ^ p.window.toNat)
      ∧ (¬ windowed → windowBase p start = start))
  ∧ (∀ (s : State) (c : CtxId),
      (s.eligible c = true ↔ (s.ctx c).state = .busReady ∧ ∃ g, (s.ctx c).segment = some g
          ∧ (s.locks.rows[g.target] = none ∨ s.locks.rows[g.target] = some c) ∧ s.targets[g.target] = none)
      ∧ (s.wouldHit c = true ↔ ∃ g, (s.ctx c).segment = some g
          ∧ s.windowHit g.target ((s.ctx c).profileOf g.half).bus g.addr = true)
      ∧ (s.mayGrant = true ↔ s.bus.state = .idle ∧ s.bus.pulsePending = false ∧ s.regs.resetting = false))
  ∧ (∀ (o : Op) (h : Half) (p : BusProfile) (n : Nat),
      (o.direction h = .read ↔ o.kind = .read ∨ o.kind = .drain ∨ o.kind = .poll ∨ (o.kind = .copy ∧ h = .source))
      ∧ (o.kind = .poll → accessBeats o p n = 1)
      ∧ (o.kind ≠ .poll → n % p.width = 0 → accessBeats o p n * p.width = n)
      ∧ (o.kind ≠ .poll → n % p.width ≠ 0 → 1 ≤ accessBeats o p n))

/-- OPEN_PHASE_END with HOLD deasserted. ACCEPT, sampled or taken without sampling: the window opens on the access's
target and base, and beat 1 begins with its strobe on the pins (R49, R50). Any other response ends the access with no
beat done: the window is closed, and the bus is IDLE, or in the pulse that was pending (R49, R54). What its owner does,
op begun set and its staged segment discarded (R14, R69): on FAULT its op fails DEVICE_FAULT (R73). On RETRY the retries
and total retries rise; past the retry limit the op fails RETRY_EXHAUSTED, else the context waits on a retry timer (R70,
R71). On RELEASE releases rises and the target's profile is invalidated; the fourth fails the op RELEASE_LOOP, else the
context is PREPARING again (R74). Where the op goes on and an abort is pending, the context completes ABORTED (R23, R69).
What follows the owner, and that the end of a phase moves the clock by the phase's length, are the model's choices (logs 5
and 3). -/
def Obligations.OpenPhaseEndsByResponse : Prop :=
  (∀ (s : State) (a : Access) (x : BitVec 2), s.bus.state = .access a → a.phase = .openPhase → a.holdTimer = none →
      a.snapshot.responses = false ∨ x = 0#2 →
      ∃ t, exec (.openPhaseEnd false x) s = .next t ∧ t.clock = s.clock + max 1 a.snapshot.setup
        ∧ t.bus.state = .access { a with phase := .beats }
        ∧ (∀ o g, (s.ctx a.owner).op = some o → (s.ctx a.owner).segment = some g → t.StrobesBeat a o g)
        ∧ t.bus.window = some { target := a.target, base := windowBase a.snapshot a.start, cls := a.snapshot.cls
                                code := a.snapshot.window }
        ∧ t.contexts = s.contexts ∧ t.queues = s.queues ∧ t.regs = s.regs ∧ t.port = s.port ∧ t.pool = s.pool
        ∧ t.targets = s.targets)
  ∧ (∀ (s : State) (a : Access) (x : BitVec 2), s.bus.state = .access a → a.phase = .openPhase → a.holdTimer = none →
      a.snapshot.responses = true → x ≠ 0#2 → a.beatsDone = 0 → s.regs.resetting = false →
      ∃ t, exec (.openPhaseEnd false x) s = .next t ∧ t.clock = s.clock + max 1 a.snapshot.setup
        ∧ t.bus.window = none ∧ t.bus.closePending = false
        ∧ (s.bus.pulsePending = false → t.bus.state = .idle ∧ t.bus.pins.tsel = 0 ∧ t.bus.turnOff = s.bus.turnOff)
        ∧ (s.bus.pulsePending = true → t.bus.state = .resetPulse (t.clock / 50 + 100) false ∧ t.bus.pins.treset = true)
        ∧ t.queues = s.queues ∧ t.regs = s.regs ∧ t.targets = s.targets ∧ t.pool.memory = s.pool.memory
        ∧ t.posted = s.posted ∧ t.port.tags = s.port.tags)
  ∧ (∀ (s : State) (a : Access) (x : BitVec 2), s.bus.state = .access a → a.phase = .openPhase → a.holdTimer = none →
      a.snapshot.responses = true → x ≠ 0#2 → s.regs.resetting = false →
      let how : AccessEnd := if x = 1#2 then .retry else if x = 2#2 then .fault else .release
      exec (.openPhaseEnd false x) s =
        .next ((((s.elapse (max 1 a.snapshot.setup)).busReleased a how).ownerEnd a how).afterOwner))
  ∧ (∀ (s : State) (a : Access) (o : Op) (g : Segment), (s.ctx a.owner).op = some o → (s.ctx a.owner).segment = some g →
      let c := a.owner
      let x := s.ctx c
      let p := x.profileOf g.half
      let w := (s.modCtx c fun y => { y with begun := true }).discardStaged c
      let retried := w.modCtx c fun y => { y with retries := y.retries + 1, totalRetries := min 65535 (y.totalRetries + 1) }
      let released := (w.modCtx c fun y => { y with releases := y.releases + 1 }).invalidate a.target
      s.ownerEnd a .fault = w.endOp c (some .deviceFault)
        ∧ (p.retryLimit ≤ x.retries → s.ownerEnd a .retry = retried.endOp c (some .retryExhausted))
        ∧ (x.retries < p.retryLimit → x.abortPending = true → s.ownerEnd a .retry = retried.completeAborted c)
        ∧ (x.retries < p.retryLimit → x.abortPending = false → s.ownerEnd a .retry = retried.modCtx c fun y => { y with
            state := .timerWait, prep := .none, timer := some (.retry, s.now + retryDelay p.baseDelay (x.retries + 1)) })
        ∧ (3 ≤ x.releases → s.ownerEnd a .release = released.endOp c (some .releaseLoop))
        ∧ (x.releases < 3 → x.abortPending = true → s.ownerEnd a .release = released.completeAborted c)
        ∧ (x.releases < 3 → x.abortPending = false → s.ownerEnd a .release = released.modCtx c fun y => { y with
            state := .preparing, prep := .run .start }))

/-- BEAT_END with HOLD deasserted. Of a beat that is not the last and that FLOW does not stop: beats done rises by one,
and after the recovery the pins show the strobe of the next beat, with its address, its lanes and, on a write, its bytes
(R50). A write beat changes nothing but the bus and the clock. Every read beat, the last too, takes its bytes off the lanes
of their target addresses (R45, R50): a POLL's become the value gathered in its context, those of a READ with RETURN go to
their places in it, and the others to the beat's place in the chunk, where every other staging byte stands. Bytes past the
end of a segment that is no whole number of beats are discarded (the model's choice, log 9). The last beat, and a beat that
FLOW stops on a STREAM target, end the access: the window closes or stays, the turn-off record is brought up to date, and
the bus is IDLE when no pulse is pending; a beat that FLOW stops moves no byte (R53, R54); what the owner then does is
stated by OwnerTakesAccessEnd. That the end of a phase moves the clock by the phase's length (log 3) and that no recovery
runs after a FLOW stop (log 18) are the model's choices. -/
def Obligations.BeatsMoveData : Prop :=
  (∀ (s : State) (a : Access) (f : Bool) (d : BitVec 32) (o : Op) (g : Segment), s.bus.state = .access a →
      a.phase = .beats → a.holdTimer = none → a.direction = .write → (a.snapshot.isStream && f) = false →
      a.beatsDone + 1 < a.beats → (s.ctx a.owner).op = some o → (s.ctx a.owner).segment = some g →
      ∃ t, exec (.beatEnd false f d) s = .next t
        ∧ t.clock = s.clock + max 1 a.snapshot.strobe + a.snapshot.recovery
        ∧ t.bus.state = .access { a with beatsDone := a.beatsDone + 1 }
        ∧ t.bus = { s.bus with state := t.bus.state, pins := t.bus.pins }
        ∧ t.StrobesBeat { a with beatsDone := a.beatsDone + 1 } o g
        ∧ t = { s with clock := t.clock, bus := t.bus })
  ∧ (∀ (s : State) (a : Access) (f : Bool) (d : BitVec 32) (o : Op) (g : Segment), s.bus.state = .access a →
      a.phase = .beats → a.holdTimer = none → a.direction = .read → (a.snapshot.isStream && f) = false →
      (s.ctx a.owner).op = some o → (s.ctx a.owner).segment = some g →
      let width := a.snapshot.width
      let moved := a.beatsDone * width
      let address := if a.snapshot.cls = 0 then a.start + BitVec.ofNat 24 moved else a.start
      let byte (j : Nat) := d.extractLsb' (8 * ((address.toNat + j) % width)) 8
      let next := { a with beatsDone := a.beatsDone + 1 }
      let taken := min width (g.len - moved)
      ∃ v : State, v.clock = s.clock + max 1 a.snapshot.strobe + a.snapshot.recovery
        ∧ v = { s with clock := v.clock, contexts := v.contexts, pool := { s.pool with memory := v.pool.memory } }
        ∧ (∀ c, c ≠ a.owner → v.ctx c = s.ctx c)
        ∧ v.ctx a.owner = { s.ctx a.owner with gathered := (v.ctx a.owner).gathered }
        ∧ (a.beats ≤ a.beatsDone + 1 → exec (.beatEnd false f d) s = .next (v.accessEnds next .allDone)
            ∧ (v.accessEnds next .allDone).pool.memory = v.pool.memory)
        ∧ (a.beatsDone + 1 < a.beats → ∃ t, exec (.beatEnd false f d) s = .next t ∧ t = { v with bus := t.bus }
            ∧ t.bus = { s.bus with state := .access next, pins := t.bus.pins } ∧ t.StrobesBeat next o g)
        ∧ (o.kind = .poll → v.pool = s.pool ∧ ∀ i, i < 8 →
            (v.ctx a.owner).gathered.extractLsb' (8 * i) 8 = if i < o.length ∧ i < width then byte i else 0)
        ∧ (o.kind ≠ .poll → o.ret = true → v.pool = s.pool ∧ ∀ i, i < 8 →
            let first := g.base + g.place + moved
            (v.ctx a.owner).gathered.extractLsb' (8 * i) 8 =
              if first ≤ i ∧ i < first + taken then byte (i - first)
              else (s.ctx a.owner).gathered.extractLsb' (8 * i) 8)
        ∧ (o.kind ≠ .poll → o.ret = false → v.contexts = s.contexts
            ∧ ∀ k, s.chunkWith a.owner .current = some k → s.MemoryCanonical →
              let at_ := 256 * k.val + (g.place + moved)
              (∀ j, j < taken → v.pool.memory.read (at_ + j) = byte j)
                ∧ ∀ x, x < at_ ∨ at_ + taken ≤ x → v.pool.memory.read x = s.pool.memory.read x))
  ∧ (∀ (s : State) (a : Access) (f : Bool) (d : BitVec 32), s.bus.state = .access a → a.phase = .beats →
      a.holdTimer = none → s.regs.resetting = false → s.bus.pulsePending = false →
      a.snapshot.window = 0 ∨ (8 ≤ a.snapshot.window.toNat ∧ a.snapshot.window.toNat ≤ 20) →
      (a.snapshot.isStream && f) = true ∨ a.beats ≤ a.beatsDone + 1 →
      let stopped := a.snapshot.isStream && f
      let done := if stopped then a.beatsDone else a.beatsDone + 1
      let closes := a.snapshot.closeAfter = true ∨ (a.snapshot.cls = 0 ∧ a.snapshot.window = 0) ∨ s.bus.closePending = true
      ∃ t, exec (.beatEnd false f d) s = .next t
        ∧ t.clock = s.clock + max 1 a.snapshot.strobe + (if stopped then 0 else a.snapshot.recovery)
        ∧ t.bus.state = .idle ∧ t.bus.closePending = false ∧ t.bus.pins.trd = false ∧ t.bus.pins.twr = false
        ∧ (closes → t.bus.window = none ∧ t.bus.pins.tsel = 0)
        ∧ (¬ closes → t.bus.window = s.bus.window ∧ t.bus.pins.tsel = s.bus.pins.tsel)
        ∧ (a.direction = .write ∨ done = 0 → t.bus.turnOff = s.bus.turnOff)
        ∧ (a.direction = .read → 0 < done → t.bus.turnOff =
            if 0 < a.snapshot.turnOff then some (a.target, t.clock + a.snapshot.turnOff) else none)
        ∧ (stopped = true ∨ a.direction = .write → t.pool.memory = s.pool.memory)
        ∧ t.queues = s.queues ∧ t.regs = s.regs ∧ t.targets = s.targets ∧ t.control = s.control)
  ∧ (∀ (s : State) (a : Access) (f : Bool) (d : BitVec 32), s.bus.state = .access a → a.phase = .beats →
      a.holdTimer = none →
      let u := s.elapse (max 1 a.snapshot.strobe)
      ((a.snapshot.isStream && f) = true → exec (.beatEnd false f d) s = .next (u.accessEnds a .flowStop))
      ∧ ((a.snapshot.isStream && f) = false → a.direction = .write → a.beats ≤ a.beatsDone + 1 →
          exec (.beatEnd false f d) s =
            .next ((u.elapse a.snapshot.recovery).accessEnds { a with beatsDone := a.beatsDone + 1 } .allDone)))

/-- What the owner does when its access ends with all beats done or on a FLOW stop; op begun sets (R13). The bytes of the
beats done are counted, and for a READ to a host buffer or a DRAIN their posted writes are handed, in ascending host
address and cut at 4 KiB, with the chunk's bytes from where the access began (R35, R126); a POLL and a COPY's source half
count none. All done: a COPY's source half goes on to the destination half with the bytes read (R15). A POLL's attempt is
counted and its value kept as return data under RETURN; a match ends the op well, the attempt limit fails it POLL_TIMEOUT,
else it waits its interval (R16, R38, R39). Any other segment ends well: the op ends when all its length has moved, with
return data for a READ with RETURN (R36); else the staged segment, its chunk now current, or a new one is prepared (R13,
R14). FLOW: the staged segment is discarded, a DRAIN ends well; for the rest retries and total retries rise, and past the
limit the op fails RETRY_EXHAUSTED, else the context waits the base delay for the remainder, a POLL for the whole attempt
(R76, R77). Where the op goes on and an abort is pending, it completes ABORTED (R23). While RESETTING is set the end is
not reported (R25). The model's choices: what follows the owner (log 5), bytes counted and the next segment's start after
a partial beat (log 9), the wrap of host addresses (log 24). -/
def Obligations.OwnerTakesAccessEnd : Prop :=
  (∀ (s : State) (a : Access) (how : AccessEnd), how ≠ .holdTimeout →
      (s.regs.resetting = true → s.accessEnds a how = s.busReleased a how)
      ∧ (s.regs.resetting = false → s.accessEnds a how = ((s.busReleased a how).ownerEnd a how).afterOwner)
      ∧ s.afterOwner = (if s.bus.pulsePending = true then s.lockEvaluate.pulseBegin else s.lockEvaluate).settle)
  ∧ (∀ (s : State) (a : Access) (o : Op) (g : Segment), (s.ctx a.owner).op = some o → (s.ctx a.owner).segment = some g →
      let c := a.owner
      let x := s.ctx c
      let p := x.profileOf g.half
      let n := min g.len (a.beatsDone * a.snapshot.width)
      let sourceHalf := o.kind = .copy ∧ g.half = .source
      let counted := s.modCtx c fun y => { y with
        begun := true, offset := if o.kind = .poll ∨ sourceHalf then y.offset else y.offset + n }
      let written := if (o.kind = .read ∧ o.ret = false) ∨ o.kind = .drain then counted.handData c o g n else counted
      (o.kind ≠ .poll → ¬ sourceHalf → s.ownerEnd a .allDone = written.segmentEnds c)
      ∧ (sourceHalf →
          let halved := s.modCtx c fun y => { y with
            begun := true, segment := some { g with half := .destination, place := 0, len := g.place + n, remainder := false } }
          (x.abortPending = true → s.ownerEnd a .allDone = halved.completeAborted c)
            ∧ (x.abortPending = false → s.ownerEnd a .allDone = halved.modCtx c fun y => { y with
                state := .preparing, prep := .run .start }))
      ∧ (o.kind = .poll →
          let value := x.gathered.setWidth 32 &&& o.mask
          let hit := if o.invert then value ≠ o.matchValue else value = o.matchValue
          let tried := s.modCtx c fun y => { y with
            begun := true, polls := y.polls + 1, segment := none
            returnData := if o.ret then some y.gathered else y.returnData }
          (hit → s.ownerEnd a .allDone = tried.endOp c none)
            ∧ (¬ hit → o.attemptLimit ≤ x.polls + 1 → s.ownerEnd a .allDone = tried.endOp c (some .pollTimeout))
            ∧ (¬ hit → x.polls + 1 < o.attemptLimit → x.abortPending = true →
                s.ownerEnd a .allDone = tried.completeAborted c)
            ∧ (¬ hit → x.polls + 1 < o.attemptLimit → x.abortPending = false → o.interval = 0 →
                s.ownerEnd a .allDone = tried.modCtx c fun y => { y with state := .preparing, prep := .run .start })
            ∧ (¬ hit → x.polls + 1 < o.attemptLimit → x.abortPending = false → o.interval ≠ 0 →
                s.ownerEnd a .allDone = tried.modCtx c fun y => { y with
                  state := .timerWait, prep := .none, timer := some (.poll, s.now + o.interval) }))
      ∧ (let stopped := written.discardStaged c
         let retried := stopped.modCtx c fun y => { y with
           retries := y.retries + 1, totalRetries := min 65535 (y.totalRetries + 1) }
         let rest := if o.kind = .poll then g else { g with place := g.place + n, len := g.len - n, remainder := true }
         (o.kind = .drain → s.ownerEnd a .flowStop = stopped.endOp c none)
          ∧ (o.kind ≠ .drain → p.retryLimit ≤ x.retries → s.ownerEnd a .flowStop = retried.endOp c (some .retryExhausted))
          ∧ (o.kind ≠ .drain → x.retries < p.retryLimit → x.abortPending = true →
              s.ownerEnd a .flowStop = (retried.modCtx c fun y => { y with segment := some rest }).completeAborted c)
          ∧ (o.kind ≠ .drain → x.retries < p.retryLimit → x.abortPending = false →
              s.ownerEnd a .flowStop = retried.modCtx c fun y => { y with
                segment := some rest, state := .timerWait, prep := .none, timer := some (.flow, s.now + p.baseDelay) })))
  ∧ (∀ (s : State) (c : CtxId) (o : Op) (g : Segment) (n : Nat) (k : ChunkId), s.chunkWith c .current = some k →
      let first := o.data + BitVec.ofNat 64 (g.base + g.place)
      let room := 4096 - first.toNat % 4096
      let write (i m : Nat) : PostedWrite := .data c k (first + BitVec.ofNat 64 i)
        ((List.range m).map fun j => s.pool.memory.read (256 * k.val + (g.place + i) + j))
      let t := s.handData c o g n
      t.posted = s.posted
          ++ (if n = 0 then [] else if n ≤ room then [write 0 n] else [write 0 room, write room (n - room)])
        ∧ t = { s with port := { s.port with issueQueue := t.port.issueQueue, held := t.port.held } })
  ∧ (∀ (s : State) (c : CtxId) (o : Op), (s.ctx c).op = some o →
      let x := s.ctx c
      let v := s.endRole c .current
      let t := s.segmentEnds c
      (o.length ≤ x.offset → t = (v.modCtx c fun y => { y with
          returnData := if o.kind = .read ∧ o.ret = true then some y.gathered else y.returnData }).endOp c none)
      ∧ (x.offset < o.length → x.abortPending = true → t = v.completeAborted c)
      ∧ (x.offset < o.length → x.abortPending = false → t.outside = s.outside
          ∧ (∀ n, x.staged = some n → n.base = x.offset →
              t.ctx c = { x with state := .preparing, prep := .run .start, segment := some n, staged := none }
                ∧ ∀ k h, s.chunkWith c .staged = some k → s.pool.chunks[k] = some h →
                    t.pool.chunks[k] = some { h with role := .current })
          ∧ ((∀ n, x.staged = some n → n.base ≠ x.offset) →
              t.ctx c = { x with state := .preparing, prep := .run .start, segment := none, staged := none })))

/-- HOLD asserted when a phase would end stretches it: the hold timer starts with the present time and nothing else of
the access changes. HOLD_DROP ends the stretched phase as it would have ended without HOLD: by the same operation that
ends it when HOLD is deasserted at the phase's end (R51). HOLD_TIMEOUT: the hold limit is reached, the window closes with
every select and strobe dropped, and the target is QUARANTINED with the owner's tag and queue; no other target's row
changes, and every BUS_READY context whose segment goes to the target is PREPARING again, no other context touched (R52,
R80). The owner, op begun set: the bytes of the beats before the held phase are counted, but for a POLL and a COPY's source
half, and written to host for a READ to a host buffer and a DRAIN; its staged segment is discarded and its op fails
HOLD_TIMEOUT (R78). That the end of a phase moves the clock by the phase's length, and an event to its due time (log 3),
that no more bytes are counted than the segment has (log 9), and what follows the owner (log 5), are the model's
choices. -/
def Obligations.HoldStretchesOrTimesOut : Prop :=
  (∀ (s : State) (a : Access) (x : BitVec 2) (f : Bool) (d : BitVec 32), s.bus.state = .access a → a.holdTimer = none →
      (a.phase = .openPhase →
        let u := s.elapse (max 1 a.snapshot.setup)
        exec (.openPhaseEnd true x) s = .next (u.modBus fun b => { b with state := .access { a with holdTimer := some u.now } })
          ∧ exec (.openPhaseEnd false x) s = .next (u.openPhaseDone a x))
      ∧ (a.phase = .beats →
        let u := s.elapse (max 1 a.snapshot.strobe)
        exec (.beatEnd true f d) s = .next (u.modBus fun b => { b with state := .access { a with holdTimer := some u.now } })
          ∧ exec (.beatEnd false f d) s = .next (u.strobeDone a f d)))
  ∧ (∀ (s : State) (a : Access) (started : Nat) (x : BitVec 2) (f : Bool) (d : BitVec 32), s.bus.state = .access a →
      a.holdTimer = some started →
      (a.phase = .openPhase → exec (.holdDrop x f d) s = .next (s.openPhaseDone { a with holdTimer := none } x))
      ∧ (a.phase = .beats → exec (.holdDrop x f d) s = .next (s.strobeDone { a with holdTimer := none } f d)))
  ∧ (∀ (s : State) (a : Access) (started : Nat) (q : QueueId), s.bus.state = .access a → a.holdTimer = some started →
    (s.ctx a.owner).queue = some q →
    ∃ t, exec .holdTimeout s = .next t ∧ t.clock = max s.clock (50 * (started + a.snapshot.holdLimit))
      ∧ t.targets[a.target] = some ((s.ctx a.owner).tag, q)
      ∧ (∀ k : TargetId, k ≠ a.target → t.targets[k] = s.targets[k])
      ∧ t.bus.window = none ∧ t.bus.pins.tsel = 0 ∧ t.bus.pins.trd = false ∧ t.bus.pins.twr = false
      ∧ t.inAccess = false ∧ t.queues = s.queues ∧ t.regs = s.regs ∧ t.pool.memory = s.pool.memory)
  ∧ (∀ (s : State) (a : Access) (started : Nat) (q : QueueId), s.bus.state = .access a → a.holdTimer = some started →
      (s.ctx a.owner).queue = some q → s.regs.resetting = false →
      let u : State := { s with clock := max s.clock (50 * (started + a.snapshot.holdLimit)) }
      let b := { a with holdTimer := none }
      exec .holdTimeout s = .next (((((u.quarantine a.target (s.ctx a.owner).tag q).busReleased b .holdTimeout).ownerEnd b
        .holdTimeout).afterOwner)))
  ∧ (∀ (s : State) (t : TargetId) (tag : BitVec 16) (q : QueueId),
      (∀ d, (s.ctx d).state = .busReady → (∃ g, (s.ctx d).segment = some g ∧ g.target = t) →
        (s.quarantine t tag q).ctx d = { s.ctx d with state := .preparing, prep := .run .start })
      ∧ (∀ d, ¬ ((s.ctx d).state = .busReady ∧ ∃ g, (s.ctx d).segment = some g ∧ g.target = t) →
        (s.quarantine t tag q).ctx d = s.ctx d))
  ∧ (∀ (s : State) (a : Access) (o : Op) (g : Segment), (s.ctx a.owner).op = some o → (s.ctx a.owner).segment = some g →
      let n := min g.len (a.beatsDone * a.snapshot.width)
      let uncounted := o.kind = .poll ∨ (o.kind = .copy ∧ g.half = .source)
      let counted := s.modCtx a.owner fun y => { y with
        begun := true, offset := if uncounted then y.offset else y.offset + n }
      let written := if (o.kind = .read ∧ o.ret = false) ∨ o.kind = .drain then counted.handData a.owner o g n else counted
      s.ownerEnd a .holdTimeout = (written.discardStaged a.owner).endOp a.owner (some .holdTimeout))

/-- The delay of a retry timer is the base delay doubled with each rise of the retries count, capped at 64 times; the
longest, of a base delay of 255, is 16,320 µs; and a RETRY within the limit waits it from the access's end (R70, R71). -/
def Obligations.RetryDelayDoublesToCap : Prop :=
  (∀ b n, 1 ≤ n → retryDelay b n = min (b * 2 ^ (n - 1)) (64 * b))
  ∧ (∀ b n, b ≤ 255 → retryDelay b n ≤ 16320)
  ∧ ∀ (s : State) (c : CtxId) (g : Segment), (s.ctx c).staged = none → s.chunkWith c .staged = none →
      (s.ctx c).abortPending = false →
      let x := s.ctx c
      let p := x.profileOf g.half
      x.retries + 1 ≤ p.retryLimit →
      (s.ownerRetry c g).ctx c = { x with
        retries := x.retries + 1, totalRetries := min 65535 (x.totalRetries + 1)
        state := .timerWait, prep := .none, timer := some (.retry, s.now + retryDelay p.baseDelay (x.retries + 1)) }

/-- A segment of an op other than a POLL is not empty, is at most 256 bytes, stays within the op and inside one window
of each target that has one, and is the longest such (R9). `limit` is the op's end, or the end of what is being moved
anew (log 13). -/
def Obligations.SegmentCutAtWindowEnds : Prop :=
  ∀ (o : Op) (h : Half) (p1 p2 : BusProfile) (start limit : Nat), o.kind ≠ .poll → start < limit →
    let n := segmentLength o h p1 p2 start limit
    let a1 := o.addr.toNat + start
    let a2 := o.addr2.toNat + start
    let w1 := 2 ^ p1.window.toNat
    let w2 := 2 ^ p2.window.toNat
    1 ≤ n ∧ n ≤ 256 ∧ start + n ≤ limit
      ∧ (h = .source → p1.windowed = true → (a1 + n - 1) / w1 = a1 / w1)
      ∧ (o.isCopy = true → p2.windowed = true → (a2 + n - 1) / w2 = a2 / w2)
      ∧ (n = 256 ∨ start + n = limit ∨ (h = .source ∧ p1.windowed = true ∧ (a1 + n) % w1 = 0)
          ∨ (o.isCopy = true ∧ p2.windowed = true ∧ (a2 + n) % w2 = 0))

/-- RETRY_TIMER_DUE, POLL_TIMER_DUE and FLOW_TIMER_DUE: the clock reaches the due time, the timer goes idle, and the
context goes to PREPARING, where it goes on from step 1 as far as it can (R17). That the event moves the clock to its
due time is the model's choice (log 3). -/
def Obligations.DueTimerPreparesAgain : Prop :=
  ∀ (s : State) (c : CtxId) (due : Nat), (s.ctx c).state = .timerWait →
    let u : State := ({ s with clock := max s.clock (50 * due) }).modCtx c fun x => { x with
      state := .preparing, prep := .run .start, timer := none }
    ((s.ctx c).timer = some (.retry, due) → exec (.retryTimerDue c) s = .next u.settle)
    ∧ ((s.ctx c).timer = some (.poll, due) → exec (.pollTimerDue c) s = .next u.settle)
    ∧ ((s.ctx c).timer = some (.flow, due) → exec (.flowTimerDue c) s = .next u.settle)
    ∧ u.settle.outside = u.outside

/-- The start of a reset pulse (R64): RESET_PULSE until 100 µs ahead, pulse-pending clear, the next pulse's requests
attached to this one, every select and strobe dropped, the window closed, TRESET asserted, the turn-off record empty,
the locality run count 0 and the rest of the arbiter as it was, and no grant possible. Every context whose op has begun and
has not ended is marked, and such a one that is BUS_READY is PREPARING again, from its first step (R12, R24); nothing else of
any context changes. -/
def Obligations.PulseBegins : Prop :=
  ∀ s : State,
    let t := s.pulseBegin
    t.bus.state = .resetPulse (s.now + 100) false ∧ t.bus.pulsePending = false
      ∧ t.bus.attachedNow = s.bus.attachedNext ∧ t.bus.attachedNext = 0
      ∧ t.bus.pins.tsel = 0 ∧ t.bus.pins.trd = false ∧ t.bus.pins.twr = false ∧ t.bus.pins.treset = true
      ∧ t.bus.window = none ∧ t.bus.closePending = false ∧ t.bus.turnOff = none
      ∧ t.bus.localityRun = 0 ∧ t.bus.lastQueue = s.bus.lastQueue ∧ t.bus.queueRun = s.bus.queueRun
      ∧ (∀ c, let x := s.ctx c
          let hit := x.begun = true ∧ x.opIndex ≠ none
          (¬ hit → t.ctx c = x) ∧ (hit → x.state ≠ .busReady → t.ctx c = { x with targetReset := true })
            ∧ (hit → x.state = .busReady →
                t.ctx c = { x with targetReset := true, state := .preparing, prep := .run .start }))
      ∧ t.mayGrant = false
      ∧ t.queues = s.queues ∧ t.port = s.port ∧ t.cache = s.cache ∧ t.locks = s.locks ∧ t.pool = s.pool
      ∧ t.targets = s.targets ∧ t.control = s.control ∧ t.regs = s.regs ∧ t.clock = s.clock

/-- PULSE_END: the end time is reached and every target is NORMAL; with a pulse pending the next one begins at once, until
100 µs ahead, with TRESET asserted and the next requests attached; with none pending and no command held, and while
RESETTING is set, TRESET is deasserted and the bus IDLE (R64, R65, R67, R83). An RSTT that was HELD and is taken again at
this end is attached to the next pulse, which begins at once (the model's choice, log 17). POWER_ON_PULSE_END: the end time
is reached; a pending pulse begins, or TRESET is deasserted and the bus IDLE, as after an RSTT pulse; no control completion
is handed and no target's state changes (R66). At the end of either every cache entry is emptied and every load in flight
cancelled (R65, R66, R99). That the event moves the clock to its due time is the model's choice (log 3). -/
def Obligations.PulsesEnd : Prop :=
  (∀ (s : State) (due : Nat), s.bus.state = .resetPulse due false →
      ∃ t, exec .pulseEnd s = .next t ∧ t.clock = max s.clock (50 * due) ∧ t.targets = Vector.replicate 16 none
        ∧ (s.regs.resetting = true ∨ (s.bus.pulsePending = false ∧ s.control.state ≠ .held) →
            t.bus.state = .idle ∧ t.bus.pins.treset = false ∧ t.bus.attachedNow = 0)
        ∧ (s.bus.pulsePending = true → s.regs.resetting = false →
            t.bus.state = .resetPulse (t.clock / 50 + 100) false ∧ t.bus.pins.treset = true ∧ t.bus.pulsePending = false
              ∧ t.bus.attachedNext = 0
              ∧ (s.control.state ≠ .held → t.bus.attachedNow = s.bus.attachedNext
                  ∧ ∃ v : State, v.contexts = s.invalidateAll.contexts ∧ t = v.pulseBegin.settle))
        ∧ (∀ r, s.control.state = .held → s.control.hand = some r → r.command = 0x07#8 → s.regs.resetting = false →
            0 < s.bus.attachedNow → (∃ e ∈ s.control.pendingList, e.kind = .rstt) → s.control.pendingList.length ≤ 4 →
            t.bus.state = .resetPulse (t.clock / 50 + 100) false ∧ t.bus.pins.treset = true
              ∧ t.bus.attachedNow = s.bus.attachedNext + 1)
        ∧ (∀ e : EntryId, t.cache.entries[e] = none)
        ∧ (∀ k : TargetId, (s.cache.rows[k]).loading = true → (t.cache.rows[k]).cancelled = true)
        ∧ t.pool.memory = s.pool.memory ∧ t.port.tags = s.port.tags)
  ∧ (∀ (s : State) (due : Nat), s.bus.state = .resetPulse due true →
      ∃ t, exec .powerOnPulseEnd s = .next t ∧ t.clock = max s.clock (50 * due) ∧ t.targets = s.targets
        ∧ t.posted = s.posted ∧ t.control = s.control ∧ t.queues = s.queues ∧ t.regs = s.regs
        ∧ (∀ e : EntryId, t.cache.entries[e] = none)
        ∧ (∀ k : TargetId, (s.cache.rows[k]).loading = true → (t.cache.rows[k]).cancelled = true)
        ∧ (s.bus.pulsePending = false ∨ s.regs.resetting = true →
            t.bus.state = .idle ∧ t.bus.pins.treset = false ∧ t.bus.attachedNow = 0)
        ∧ (s.bus.pulsePending = true → s.regs.resetting = false →
            t.bus.state = .resetPulse (t.clock / 50 + 100) false ∧ t.bus.pins.treset = true ∧ t.bus.pulsePending = false
              ∧ t.bus.attachedNow = s.bus.attachedNext ∧ t.bus.attachedNext = 0
              ∧ ∃ v : State, v.contexts = s.invalidateAll.contexts ∧ t = v.pulseBegin.settle))

/-! ### Control commands -/

/-- CONTROL_READ_ERROR: the reservation is given back, the head stays, no entry is written, and the Control Unit is in
READ_FAILED (R164). UNKNOWN_COMMAND: a record whose command is none of the nine completes UNKNOWN_COMMAND (R165); while
no preparation has a step to take, nothing else changes: no context, lock, chunk, cache entry, fetch, target or pending
control command, and no bus state. -/
def Obligations.FailedOrUnknownRecord : Prop :=
  (∀ (s : State) (i : TagId), s.controlTag = some i → s.regs.resetting = false →
      exec .controlReadError s = .next (((s.setTag i .free).modQueue 0 fun r => { r with reserved := r.reserved - 1 }).modControl
        fun k => { k with state := .readFailed }))
  ∧ (∀ (s : State) (i : TagId) (slot : List Byte) (b : Byte), s.SlotReturns i slot b → b.toNat = 0 ∨ 9 < b.toNat →
      ∃ t, exec (.unknownCommand slot) s = .next t ∧ s.ConsumesSlot t i
        ∧ s.CompletesControl t { tag := half16 slot 2, status := .unknownCommand }
        ∧ t.bus = s.bus ∧ t.targets = s.targets ∧ (∀ q, q ≠ 0 → t.queue q = s.queue q)
        ∧ (s.Settled → s.KeepsAllButControl t))

/-- MARK completes OK at once with the record's value in the cookie field and every other field as R165 gives (R178).
While no preparation has a step to take, nothing else changes: no context, lock, chunk, cache entry, fetch, target or
pending control command, and no bus state. -/
def Obligations.MarkEchoesValue : Prop :=
  ∀ (s : State) (i : TagId) (slot : List Byte), s.SlotReturns i slot 0x09#8 →
    ∃ t, exec (.mark slot) s = .next t ∧ s.ConsumesSlot t i
      ∧ s.CompletesControl t { tag := half16 slot 2, status := .ok, cookie := word32 slot 12 }
      ∧ t.bus = s.bus ∧ t.targets = s.targets ∧ (∀ q, q ≠ 0 → t.queue q = s.queue q)
      ∧ (s.Settled → s.KeepsAllButControl t)

/-- QRYQ reports a queue's row as it stands when the command is taken, queue 0's with the head already past the QRYQ's own
slot; a queue above 8 gives BAD_QUEUE; it changes nothing in the row (R177, R186). That the cookie's top byte is 0 is the
model's choice (log 34). -/
def Obligations.QueryReportsRow : Prop :=
  ∀ (s : State) (i : TagId) (slot : List Byte), s.SlotReturns i slot 0x08#8 →
    (∀ q : QueueId, (byteAt slot 4).toNat = q.val →
      let r := (s.slotTaken i).queue q
      ∃ t, exec (.qryq slot) s = .next t ∧ s.ConsumesSlot t i
        ∧ s.CompletesControl t {
            tag := half16 slot 2, status := .ok
            ret := some (BitVec.ofNat 64 (r.subHead + 2 ^ 16 * r.subTail + 2 ^ 32 * r.cplTail + 2 ^ 48 * r.cplHead))
            cookie := BitVec.ofNat 32 (r.state.code + 2 ^ 8 * r.configured.toNat + 2 ^ 16 * r.haltReason.code)
            opsCompleted := if q = 0 then 0 else r.outstanding
            totalRetries := r.reserved }
        ∧ t.bus = s.bus ∧ t.targets = s.targets ∧ ∀ p, p ≠ 0 → t.queue p = s.queue p)
    ∧ (8 < (byteAt slot 4).toNat →
      ∃ t, exec (.qryq slot) s = .next t ∧ s.ConsumesSlot t i
        ∧ s.CompletesControl t { tag := half16 slot 2, status := .badQueue }
        ∧ ∀ p, p ≠ 0 → t.queue p = s.queue p)

/-- CFGQ on a DISABLED queue with every parameter in range sets the queue's rings, limit, weight and moderation and
completes OK; the indices and the state stand (R168, R133). In range: both size codes from 4 to 12, both bases 4 KiB
aligned, the limit from 1 to 16, the weight from 1 to 8, the threshold from 1 to 255 (R168, R185). Its checks in their
order: a queue outside 1 to 8 gives BAD_QUEUE, one that is not DISABLED QUEUE_BUSY, a parameter out of range BAD_PARAMETER.
ENQ on a DISABLED, configured queue makes it ACTIVE with its indices, counts, timer and halt reason reset, and completes OK
(R169, R133). Its checks in their order: a queue outside 1 to 8 gives BAD_QUEUE, one that is not DISABLED QUEUE_BUSY, an
unconfigured one NOT_CONFIGURED. A command that fails changes no row but queue 0's indices (R165). -/
def Obligations.QueueConfiguredAndEnabled : Prop :=
  let inRange (slot : List Byte) : Prop :=
    (∀ at_ ∈ [32, 33], 4 ≤ (byteAt slot at_).toNat ∧ (byteAt slot at_).toNat ≤ 12)
      ∧ (∀ at_ ∈ [16, 24], (word64 slot at_).toNat % 4096 = 0)
      ∧ 1 ≤ (byteAt slot 34).toNat ∧ (byteAt slot 34).toNat ≤ 16
      ∧ 1 ≤ (byteAt slot 35).toNat ∧ (byteAt slot 35).toNat ≤ 8 ∧ 1 ≤ (byteAt slot 36).toNat
  ((∀ (s : State) (i : TagId) (slot : List Byte) (q : QueueId), s.SlotReturns i slot 0x01#8 → q ≠ 0 →
       (byteAt slot 4).toNat = q.val → (s.queue q).state = .disabled → inRange slot →
       ∃ t, exec (.cfgq slot) s = .next t ∧ s.ConsumesSlot t i
         ∧ s.CompletesControl t { tag := half16 slot 2, status := .ok }
         ∧ t.queue q = { s.queue q with
             configured := true
             subBase := word64 slot 16, subSize := 2 ^ (byteAt slot 32).toNat
             cplBase := word64 slot 24, cplSize := 2 ^ (byteAt slot 33).toNat
             limit := (byteAt slot 34).toNat, weight := (byteAt slot 35).toNat
             threshold := (byteAt slot 36).toNat, delay := (half16 slot 38).toNat }
         ∧ (∀ p, p ≠ 0 → p ≠ q → t.queue p = s.queue p) ∧ t.bus = s.bus ∧ t.targets = s.targets)
   ∧ ∀ (s : State) (i : TagId) (slot : List Byte), s.SlotReturns i slot 0x01#8 →
       let n := (byteAt slot 4).toNat
       let fails (e : Status) : Prop := ∃ t, exec (.cfgq slot) s = .next t ∧ s.ConsumesSlot t i
         ∧ s.CompletesControl t { tag := half16 slot 2, status := e } ∧ ∀ p, p ≠ 0 → t.queue p = s.queue p
       (n = 0 ∨ 8 < n → fails .badQueue)
       ∧ ∀ q : QueueId, q ≠ 0 → n = q.val →
         ((s.queue q).state ≠ .disabled → fails .queueBusy)
         ∧ ((s.queue q).state = .disabled → ¬ inRange slot → fails .badParameter))
  ∧ ((∀ (s : State) (i : TagId) (slot : List Byte) (q : QueueId), s.SlotReturns i slot 0x02#8 → q ≠ 0 →
       (byteAt slot 4).toNat = q.val → (s.queue q).state = .disabled → (s.queue q).configured = true →
       ∃ t, exec (.enq slot) s = .next t ∧ s.ConsumesSlot t i
         ∧ s.CompletesControl t { tag := half16 slot 2, status := .ok }
         ∧ t.queue q = { s.queue q with
             state := .active, subHead := 0, subTail := 0, cplTail := 0, cplHead := 0, phase := true
             reserved := 0, outstanding := 0, count := 0, delayTimer := none, messageDue := false
             haltReason := .none, refused := false }
         ∧ t.bus = s.bus ∧ t.targets = s.targets)
   ∧ ∀ (s : State) (i : TagId) (slot : List Byte), s.SlotReturns i slot 0x02#8 →
       let n := (byteAt slot 4).toNat
       let fails (e : Status) : Prop := ∃ t, exec (.enq slot) s = .next t ∧ s.ConsumesSlot t i
         ∧ s.CompletesControl t { tag := half16 slot 2, status := e } ∧ ∀ p, p ≠ 0 → t.queue p = s.queue p
       (n = 0 ∨ 8 < n → fails .badQueue)
       ∧ ∀ q : QueueId, q ≠ 0 → n = q.val →
         ((s.queue q).state ≠ .disabled → fails .queueBusy)
         ∧ ((s.queue q).state = .disabled → (s.queue q).configured = false → fails .notConfigured))

/-- DISQ on a queue that cannot reach DISABLED at once, because it has contexts outstanding or a fetch in flight, with room
in the pending control list: an ACTIVE or HALTED queue goes to STOPPING with its bit of the halted mask clear (R134, R183), a
STOPPING one stands, the command joins the list with the count of the contexts it marks, those of the queue in any state but
FREE and COMPLETING, and no entry is handed; with four entries in the list it takes no action and is HELD (R165, R166,
R170). Under mode ABORT every context of the queue that is not FREE takes the abort that AbortMarksMatching states, one after
another (R22, R23; in which order is the model's choice, log 5). On a queue that holds nothing it makes the queue DISABLED and completes OK at once (R134): the mask bit is clear and
the delay timer idle, and entries not yet signalled are sent as a message, or leave one due while IRQ_ENABLE is clear
(R145). On a DISABLED queue it completes OK at once and changes nothing of it; a queue outside 1 to 8 gives BAD_QUEUE and a
mode other than DRAIN and ABORT BAD_PARAMETER (R170, R185). -/
def Obligations.DisableQueue : Prop :=
  let counted (s : State) (q : QueueId) (c : CtxId) : Bool :=
    (s.ctx c).queue == some q && (s.ctx c).state != .free && (s.ctx c).state != .completing
  let busy (s : State) (q : QueueId) : Prop := 0 < (s.queue q).outstanding ∨ s.fetchOf q ≠ none
  let taken (s : State) (i : TagId) : State :=
    ((s.setTag i .free).modQueue 0 fun r => { r with subHead := (r.subHead + 1) % r.subSize }).modControl fun k =>
      { k with state := .idle, hand := none }
  let stopped (s : State) (q : QueueId) : State :=
    (s.modQueue q fun r => { r with state := .stopping }).modRegs fun g =>
      if (s.queue q).state = .stopping then g else { g with haltedMask := g.haltedMask &&& ~~~(1#8 <<< (q.val - 1)) }
  let reached (s : State) (q : QueueId) (aborts : Bool) (l : List CtxId) : Prop := l.Perm
    ((List.finRange 16).filter fun c => aborts && (s.ctx c).queue == some q && (s.ctx c).state != .free)
  let unmasked (r : Regs) (q : QueueId) : Regs := { r with haltedMask := r.haltedMask &&& ~~~(1#8 <<< (q.val - 1)) }
  (∀ (s : State) (i : TagId) (slot : List Byte) (q : QueueId), s.SlotReturns i slot 0x03#8 → q ≠ 0 →
      (byteAt slot 4).toNat = q.val → (byteAt slot 6).toNat ≤ 1 → (s.queue q).state ≠ .disabled → busy s q →
      let aborts := byteAt slot 6 == 1#8
      let marked := if aborts then ((List.finRange 16).filter (counted s q)).length else 0
      (s.control.pendingList.length < 4 →
        ∃ t, exec (.disq slot) s = .next t ∧ s.ConsumesSlot t i
          ∧ t.control.pendingList = s.control.pendingList ++ [{ tag := half16 slot 2, kind := .disq q aborts marked }]
          ∧ t.regs = (if (s.queue q).state = .stopping then s.regs else unmasked s.regs q)
          ∧ t.queue q = { s.queue q with state := .stopping }
          ∧ t.posted = s.posted ∧ (∀ p, p ≠ 0 → p ≠ q → t.queue p = s.queue p)
          ∧ (∀ c, (t.ctx c).abortPending = ((s.ctx c).abortPending
              || (aborts && (s.ctx c).queue == some q && (s.ctx c).state != .free)))
          ∧ ∃ l, reached s q aborts l
              ∧ t = ((l.foldl State.abort (stopped (taken s i) q)).modControl fun k => { k with
                  pendingList := k.pendingList ++ [{ tag := half16 slot 2, kind := .disq q aborts marked }] }).controlTest.settle)
      ∧ (4 ≤ s.control.pendingList.length →
        ∃ t, exec (.disq slot) s = .next t ∧ s.ConsumesSlot t i ∧ t.control.state = .held
          ∧ t.control.hand = some (parseControl slot) ∧ t.control.pendingList = s.control.pendingList
          ∧ t.posted = s.posted ∧ t.regs = s.regs ∧ ∀ p, p ≠ 0 → t.queue p = s.queue p))
  ∧ (∀ (s : State) (i : TagId) (slot : List Byte), s.SlotReturns i slot 0x03#8 →
      let n := (byteAt slot 4).toNat
      let ends (e : Status) : Prop := ∃ t, exec (.disq slot) s = .next t ∧ s.ConsumesSlot t i
        ∧ s.CompletesControl t { tag := half16 slot 2, status := e } ∧ ∀ p, p ≠ 0 → t.queue p = s.queue p
      (n = 0 ∨ 8 < n → ends .badQueue)
      ∧ (1 ≤ n → n ≤ 8 → 1 < (byteAt slot 6).toNat → ends .badParameter)
      ∧ (∀ q : QueueId, q ≠ 0 → n = q.val → (byteAt slot 6).toNat ≤ 1 → (s.queue q).state = .disabled → ends .ok)
      ∧ (∀ q : QueueId, q ≠ 0 → n = q.val → (byteAt slot 6).toNat ≤ 1 → (s.queue q).state ≠ .disabled →
          ¬ busy s q →
          let marked := if byteAt slot 6 == 1#8 then ((List.finRange 16).filter (counted s q)).length else 0
          let owed := 0 < (s.queue q).count
          let entry : Entry := { tag := half16 slot 2, status := .ok, bytes := BitVec.ofNat 32 marked }
          ∃ t, exec (.disq slot) s = .next t ∧ s.ConsumesSlot t i
            ∧ t.posted = s.posted ++ (if owed ∧ s.regs.irqEnable = true then [PostedWrite.message q] else [])
                ++ [.entry 0 none false ((s.queue 0).cplBase + BitVec.ofNat 64 (32 * (s.queue 0).cplTail)) (s.queue 0).phase
                      entry]
            ∧ (¬ owed ∨ s.regs.irqEnable = false → s.CompletesControl t entry)
            ∧ t.queue q = { s.queue q with
                state := .disabled, delayTimer := none
                count := if s.regs.irqEnable = true then 0 else (s.queue q).count
                messageDue := if owed then !s.regs.irqEnable else (s.queue q).messageDue }
            ∧ t.regs = unmasked s.regs q ∧ t.control.pendingList = s.control.pendingList
            ∧ (∀ p, p ≠ 0 → p ≠ q → t.queue p = s.queue p)
            ∧ ∃ l, reached s q (byteAt slot 6 == 1#8) l
                ∧ t = (((l.foldl State.abort (stopped (taken s i) q)).disable q).handEntry 0 none false
                    entry).controlTest.settle))

/-- ABT sets abort-pending on every context of the queue whose header has loaded, whose tag matches and which is
neither FREE nor COMPLETING, and on no other, and completes OK with their number; each takes
the abort that the second clause states, one after another (in which order is the model's choice, log 5); with none it completes NOT_FOUND; a
queue outside 1 to 8 gives BAD_QUEUE (R172). What abort-pending does to a context (R22, R23): a FREE one is not marked; a
LOADING or COMPLETING one is marked, no more; an ON_BUS one is marked and its listed reads dropped; one in FENCE_WAIT,
LOCK_WAIT, BUS_READY or TIMER_WAIT is COMPLETING with ABORTED at once, and has left the lock waiters; so is a PREPARING
one, but while its profile load or a host read of it is in flight it stays PREPARING, and out of the chunk lists (with
both a claim and a read: the model's choice, log 32). When the load or its last read has returned it is COMPLETING with
ABORTED. -/
def Obligations.AbortMarksMatching : Prop :=
  (∀ (s : State) (i : TagId) (slot : List Byte), s.SlotReturns i slot 0x04#8 →
    let n := (byteAt slot 4).toNat
    let matched (q : QueueId) := (List.finRange 16).filter fun c => (s.ctx c).queue == some q && (s.ctx c).headerLoaded
      && (s.ctx c).tag == half16 slot 8 && (s.ctx c).state != .free && (s.ctx c).state != .completing
    let taken := ((s.setTag i .free).modQueue 0 fun r => { r with subHead := (r.subHead + 1) % r.subSize }).modControl fun k =>
      { k with state := .idle, hand := none }
    (∀ q : QueueId, q ≠ 0 → n = q.val → matched q ≠ [] →
      ∃ t, exec (.abt slot) s = .next t ∧ s.ConsumesSlot t i
        ∧ s.CompletesControl t {
            tag := half16 slot 2, status := .ok, bytes := BitVec.ofNat 32 (matched q).length }
        ∧ (∃ l : List CtxId, l.Perm (matched q)
            ∧ t = ((l.foldl State.abort taken).handEntry 0 none false {
                tag := half16 slot 2, status := .ok, bytes := BitVec.ofNat 32 (matched q).length }).controlTest.settle)
        ∧ (∀ c, (t.ctx c).abortPending = ((s.ctx c).abortPending || (matched q).contains c))
        ∧ ∀ p, p ≠ 0 → t.queue p = s.queue p)
    ∧ (∀ q : QueueId, q ≠ 0 → n = q.val → matched q = [] →
      ∃ t, exec (.abt slot) s = .next t ∧ s.ConsumesSlot t i
        ∧ s.CompletesControl t { tag := half16 slot 2, status := .notFound }
        ∧ ∀ c, (t.ctx c).abortPending = (s.ctx c).abortPending)
    ∧ (n = 0 ∨ 8 < n →
      ∃ t, exec (.abt slot) s = .next t ∧ s.ConsumesSlot t i
        ∧ s.CompletesControl t { tag := half16 slot 2, status := .badQueue }))
  ∧ (∀ (s : State) (c : CtxId),
      let x := s.ctx c
      let t := s.abort c
      let marked := s.modCtx c fun y => { y with abortPending := true }
      let unread (u : State) := u.modPort fun h => { h with moverReads := h.moverReads.filter fun r => !r.ref.isDataOf c }
      let unclaimed (u : State) := u.modPool fun p => { p with
        waiters := p.waiters.filter fun m => m.context != c, refused := p.refused.filter fun m => m.context != c }
      let ended := (t.ctx c).state = .completing ∧ (t.ctx c).abortPending = true ∧ (t.ctx c).timer = none
        ∧ (t.ctx c).opIndex = none ∧ (∃ e, (t.ctx c).entry = some e ∧ e.status = .aborted ∧ e.first = x.firstError)
        ∧ (∀ r ∈ t.port.moverReads, r.ref.isDataOf c = false) ∧ ∀ m ∈ t.pool.waiters ++ t.pool.refused, m.context ≠ c
      (x.state = .free → t = s)
      ∧ (x.state = .loading ∨ x.state = .completing → t = marked)
      ∧ (x.state = .onBus → t = unread marked)
      ∧ (x.state = .fenceWait ∨ x.state = .busReady ∨ x.state = .timerWait → ended)
      ∧ (x.state = .lockWait → ended ∧ ∀ w ∈ t.locks.waiters, w.context ≠ c)
      ∧ (x.state = .preparing → (∃ second, x.prep = .waitProfile second) → t = unread marked)
      ∧ (x.state = .preparing → (¬ ∃ second, x.prep = .waitProfile second) →
          (s.readInFlight (·.isDataOf c) = true → t = (unread (unclaimed marked)).setPrep c .waitReads)
          ∧ (s.readInFlight (·.isDataOf c) = false → ended))
      ∧ (∀ d, d ≠ c → (t.ctx d).abortPending = (s.ctx d).abortPending))
  ∧ (∀ (s : State) (c : CtxId), s.readInFlight (·.isDataOf c) = false → s.finishAbort c = s.completeAborted c)
  ∧ (∀ (s : State) (c : CtxId), (s.ctx c).state = .preparing → (s.ctx c).prep = .waitReads →
      (s.ctx c).abortPending = true → s.afterDataRead c = s.finishAbort c)
  ∧ (∀ (s : State) (i : TagId) (k : TargetId) (a : HostAddr) (r : Response) (c : CtxId),
      s.Awaits i { ref := .profile k, addr := a, len := 32 } → responseComplete r 32 = true → c ∈ (s.cache.rows[k]).waiters →
      (s.ctx c).abortPending = true → (∀ w ∈ s.locks.waiters, w.context ≠ c) → s.readInFlight (·.isDataOf c) = false →
      ∃ t, exec (.profileLoadReturn i r) s = .next t ∧ (t.ctx c).state = .completing
        ∧ ∃ e, (t.ctx c).entry = some e ∧ e.status = .aborted)

/-- INVP of one target empties the entry that holds it and no other, cancels its load in flight, and completes OK. Its
window, open with no access to it in progress, closes at once with every select dropped, also while an access to another
target is in progress; an access to it in progress, in any part, keeps the window and sets close-pending; otherwise the
bus stands (R58). INVP ALL empties every entry, cancels every load in flight and does the same with the window (R99). A
target that is neither 0 to 15 nor ALL gives BAD_PARAMETER (R98, R173). The contexts, before preparations go on (R98, R12,
R31): one whose op names the target is marked to repeat its checks; a BUS_READY one whose cut rests on it, by its half's own
target or a source half's second one, is PREPARING again; a PREPARING one discards its copy and stays in its wait; no other
context changes, nor anything else of these. -/
def Obligations.InvalidateEmptiesEntry : Prop :=
  (∀ (s : State) (i : TagId) (slot : List Byte), s.SlotReturns i slot 0x05#8 →
    let busyWith (k : TargetId) := ∃ a, s.bus.state = .access a ∧ a.target = k
    (∀ k : TargetId, (byteAt slot 5).toNat = k.val →
      let open_ := ∃ w, s.bus.window = some w ∧ w.target = k
      ∃ t, exec (.invp slot) s = .next t ∧ s.ConsumesSlot t i
        ∧ s.CompletesControl t { tag := half16 slot 2, status := .ok }
        ∧ (∀ e : EntryId, t.cache.entries[e] =
            if (s.cache.entries[e]).any (fun f => f.target == k) then none else s.cache.entries[e])
        ∧ ((s.cache.rows[k]).loading = true → (t.cache.rows[k]).cancelled = true)
        ∧ (¬ busyWith k → open_ → t.bus.window = none ∧ t.bus.pins.tsel = 0 ∧ t.bus.state = s.bus.state)
        ∧ (busyWith k → t.bus = { s.bus with closePending := true })
        ∧ (¬ busyWith k → ¬ open_ → t.bus = s.bus)
        ∧ (∃ w : State, t = w.settle ∧ w.contexts = (s.invalidate k).contexts)
        ∧ t.targets = s.targets ∧ ∀ p, p ≠ 0 → t.queue p = s.queue p)
    ∧ (15 < (byteAt slot 5).toNat → byteAt slot 5 ≠ 0xFF#8 →
      ∃ t, exec (.invp slot) s = .next t ∧ s.ConsumesSlot t i
        ∧ s.CompletesControl t { tag := half16 slot 2, status := .badParameter } ∧ t.bus = s.bus)
    ∧ (byteAt slot 5 = 0xFF#8 →
      ∃ t, exec (.invp slot) s = .next t ∧ s.ConsumesSlot t i
        ∧ s.CompletesControl t { tag := half16 slot 2, status := .ok }
        ∧ (∀ e : EntryId, t.cache.entries[e] = none)
        ∧ (∀ k : TargetId, (s.cache.rows[k]).loading = true → (t.cache.rows[k]).cancelled = true)
        ∧ (∀ w, s.bus.window = some w →
            (¬ busyWith w.target → t.bus.window = none ∧ t.bus.pins.tsel = 0)
            ∧ (busyWith w.target → t.bus.window = some w ∧ t.bus.pins = s.bus.pins))
        ∧ (∀ a, s.bus.state = .access a → t.bus.closePending = true)
        ∧ (∃ w : State, t = w.settle ∧ w.contexts = s.invalidateAll.contexts)
        ∧ t.bus.state = s.bus.state ∧ t.targets = s.targets ∧ ∀ p, p ≠ 0 → t.queue p = s.queue p))
  ∧ (∀ (s : State) (c : CtxId) (o : Op), (s.ctx c).op = some o →
      let x := s.ctx c
      (∀ k : TargetId,
        let back := x.state = .busReady ∧ (if x.half = .source then k ∈ o.targets else k = o.target2)
        let discards := x.state = .preparing
        (s.invalidate k).ctx c = { x with
          recheck := x.recheck || decide (k ∈ o.targets)
          state := if back then .preparing else x.state
          prep := if back then .run .start else x.prep
          prof1 := if discards ∧ x.half = .source ∧ o.target = k then none else x.prof1
          prof2 := if discards ∧ o.kind = .copy ∧ o.target2 = k then none else x.prof2 })
      ∧ (let y := s.invalidateAll.ctx c
         y = { x with recheck := true, state := y.state, prep := y.prep, prof1 := y.prof1, prof2 := y.prof2 }
          ∧ (x.state = .busReady → y.state = .preparing ∧ y.prep = .run .start)
          ∧ (x.state ≠ .busReady → y.state = x.state ∧ y.prep = x.prep)
          ∧ (x.state = .preparing → (x.half = .source → y.prof1 = none) ∧ (o.kind = .copy → y.prof2 = none))
          ∧ (x.state ≠ .preparing → x.state ≠ .busReady → y.prof1 = x.prof1 ∧ y.prof2 = x.prof2)))
  ∧ (∀ (s : State) (c : CtxId), (s.ctx c).op = none →
      (∀ k : TargetId, (s.invalidate k).ctx c = s.ctx c) ∧ s.invalidateAll.ctx c = s.ctx c)

/-- RLST sets the target's row NORMAL and reports its previous contents; a target that is not 0 to 15 gives BAD_PARAMETER
(R82, R174, R186). That bytes 21 to 23 of the RETURN data are 0 is the model's choice (log 34). -/
def Obligations.ReleaseTargetReportsRow : Prop :=
  ∀ (s : State) (i : TagId) (slot : List Byte), s.SlotReturns i slot 0x06#8 →
    (∀ k : TargetId, (byteAt slot 5).toNat = k.val →
      ∃ t, exec (.rlst slot) s = .next t ∧ s.ConsumesSlot t i
        ∧ s.CompletesControl t {
            tag := half16 slot 2, status := .ok
            ret := some (match s.targets[k] with
              | none => 0
              | some (g, q) => BitVec.ofNat 64 (1 + 2 ^ 8 + 2 ^ 16 * g.toNat + 2 ^ 32 * q.val)) }
        ∧ t.targets[k] = none ∧ (∀ j : TargetId, j ≠ k → t.targets[j] = s.targets[j])
        ∧ t.bus = s.bus ∧ ∀ p, p ≠ 0 → t.queue p = s.queue p)
    ∧ (15 < (byteAt slot 5).toNat →
      ∃ t, exec (.rlst slot) s = .next t ∧ s.ConsumesSlot t i
        ∧ s.CompletesControl t { tag := half16 slot 2, status := .badParameter } ∧ t.targets = s.targets)

/-- RSTT with room in the pending control list joins it and hands no entry: from IDLE the pulse begins at once with TRESET
asserted for 100 µs and the request attached, and the contexts whose op has begun are marked as at the start of any pulse
(R24, R64; PulseBegins); in an access or a pulse it is pending (R63, R175). With four entries in the
list it does not act: it stays the command in hand, HELD, with its reservation, and the bus and the list stand (R166). -/
def Obligations.ResetTargetsRequestsPulse : Prop :=
  ∀ (s : State) (i : TagId) (slot : List Byte), s.SlotReturns i slot 0x07#8 →
    (s.control.pendingList.length < 4 →
      ∃ t, exec (.rstt slot) s = .next t ∧ s.ConsumesSlot t i ∧ t.posted = s.posted
        ∧ t.control.pendingList = s.control.pendingList ++ [{ tag := half16 slot 2, kind := .rstt }]
        ∧ (s.bus.state = .idle → t.bus.state = .resetPulse (s.now + 100) false ∧ t.bus.pins.treset = true
            ∧ t.bus.window = none ∧ t.bus.attachedNow = s.bus.attachedNext + 1
            ∧ ∃ w : State, w.contexts = s.contexts ∧ w.cache = s.cache ∧ w.pool = s.pool ∧ w.locks = s.locks
                ∧ t = w.pulseBegin.settle)
        ∧ (s.bus.state ≠ .idle → t.bus = { s.bus with
            pulsePending := true, attachedNext := s.bus.attachedNext + 1 })
        ∧ t.targets = s.targets ∧ ∀ p, p ≠ 0 → t.queue p = s.queue p)
    ∧ (4 ≤ s.control.pendingList.length →
      ∃ t, exec (.rstt slot) s = .next t ∧ s.ConsumesSlot t i ∧ t.posted = s.posted
        ∧ t.control = { s.control with state := .held, hand := some (parseControl slot) }
        ∧ (t.queue 0).reserved = (s.queue 0).reserved ∧ t.bus = s.bus ∧ t.targets = s.targets
        ∧ ∀ p, p ≠ 0 → t.queue p = s.queue p)

/-- Deferred commands complete (R171, R176, R167, R166). A STOPPING queue that holds nothing becomes DISABLED: its bit of the
halted mask clears, its delay timer is idle, and entries not yet signalled are sent as a message, or leave one due while
IRQ_ENABLE is clear (R134, R145, R183); its pending DISQs leave the list and complete OK in the order they joined, each with
its own count of marked contexts; the others stay. Any other queue stands at that test. PULSE_END completes the RSTTs
attached to the pulse OK in that order (which those are: log 19); the DISQs and the later RSTTs stay. At either event the
entries leave the list together whatever the Control Unit's state, so that a HELD command is taken again then, from the
start: an RSTT joins the list, a DISQ whose queue has become DISABLED completes
OK, and the Control Unit is no longer HELD. -/
def Obligations.PendingCommandsComplete : Prop :=
  let ended (l : List PendingEntry) : List (QueueId × Entry) := l.map fun e => (0, {
    tag := e.tag, status := .ok, bytes := match e.kind with
      | .disq _ _ marked => BitVec.ofNat 32 marked
      | .rstt => 0 })
  (∀ (s : State) (q : QueueId), (s.queue q).state = .stopping → (s.queue q).outstanding = 0 → s.fetchOf q = none →
      s.regs.resetting = false → s.control.state ≠ .held →
      let names (e : PendingEntry) := ∃ abortMode marked, e.kind = .disq q abortMode marked
      ∃ done rest, (s.queueTest q).control = { s.control with pendingList := rest }
        ∧ (s.queueTest q).postedEntries = s.postedEntries ++ ended done
        ∧ done.Sublist s.control.pendingList ∧ rest.Sublist s.control.pendingList
        ∧ (∀ e, e ∈ done ↔ e ∈ s.control.pendingList ∧ names e) ∧ (∀ e, e ∈ rest ↔ e ∈ s.control.pendingList ∧ ¬ names e)
        ∧ done.length + rest.length = s.control.pendingList.length
        ∧ ((s.queueTest q).queue q).state = .disabled
        ∧ (s.queueTest q).regs = { s.regs with haltedMask := s.regs.haltedMask &&& ~~~(1#8 <<< (q.val - 1)) }
        ∧ (q ≠ 0 → (s.queueTest q).queue q = { s.queue q with
            state := .disabled, delayTimer := none, count := if s.regs.irqEnable = true then 0 else (s.queue q).count
            messageDue := if 0 < (s.queue q).count then !s.regs.irqEnable else (s.queue q).messageDue })
        ∧ ∃ entries, entries.length = done.length ∧ (s.queueTest q).posted = s.posted
            ++ (if 0 < (s.queue q).count ∧ s.regs.irqEnable = true then [PostedWrite.message q] else []) ++ entries)
  ∧ (∀ (s : State) (q : QueueId), (s.queue q).state = .stopping → (s.queue q).outstanding = 0 → s.fetchOf q = none →
      let names (e : PendingEntry) : Bool := match e.kind with
        | .disq p _ _ => p == q
        | .rstt => false
      s.queueTest q = (s.disable q).pendingDone (s.control.pendingList.filter names)
        (s.control.pendingList.filter fun e => !names e))
  ∧ (∀ (s : State) (q : QueueId),
      let u := (s.modQueue q fun r => { r with state := .disabled }).modRegs fun g =>
        { g with haltedMask := g.haltedMask &&& ~~~(1#8 <<< (q.val - 1)) }
      s.disable q = (if 0 < (s.queue q).count then u.oweMessage q else u).modQueue q fun r => { r with delayTimer := none })
  ∧ (∀ (s : State) (due : Nat), s.bus.state = .resetPulse due false →
      ∃ t u done rest, exec .pulseEnd s = .next t ∧ u.control = s.control ∧ u.queues = s.queues ∧ u.regs = s.regs
        ∧ u.posted = s.posted ∧ u.bus.state = s.bus.state
        ∧ done = (s.control.pendingList.filter fun e => e.kind == .rstt).take s.bus.attachedNow
        ∧ (rest.filter fun e => e.kind == .rstt)
            = (s.control.pendingList.filter fun e => e.kind == .rstt).drop s.bus.attachedNow
        ∧ rest.Sublist s.control.pendingList ∧ (rest.filter fun e => e.kind != .rstt) = s.control.pendingList.filter (fun e => e.kind != .rstt)
        ∧ (let w := State.pendingDone u done rest
           t.control = w.control ∧ t.queues = w.queues ∧ t.regs = w.regs ∧ t.posted = w.posted))
  ∧ (∀ (s : State) (q : QueueId), (s.queue q).state ≠ .stopping ∨ 0 < (s.queue q).outstanding ∨ s.fetchOf q ≠ none →
      s.queueTest q = s)
  ∧ (∀ (s : State) (due : Nat), s.bus.state = .resetPulse due false → s.regs.resetting = false → s.control.state ≠ .held →
      ∃ t, exec .pulseEnd s = .next t
        ∧ t.postedEntries = s.postedEntries
            ++ ended ((s.control.pendingList.filter fun e => e.kind == .rstt).take s.bus.attachedNow)
        ∧ (t.control.pendingList.filter fun e => e.kind == .rstt)
            = (s.control.pendingList.filter fun e => e.kind == .rstt).drop s.bus.attachedNow
        ∧ (t.control.pendingList.filter fun e => e.kind != .rstt)
            = s.control.pendingList.filter fun e => e.kind != .rstt)
  ∧ (∀ (s : State) (done rest : List PendingEntry) (r : ControlRecord), s.regs.resetting = false → done ≠ [] →
      rest.length < 4 → s.control.state = .held → s.control.hand = some r →
      let t := s.pendingDone done rest
      t.control.state ≠ .held ∧ t.control.hand = none
        ∧ (r.command = 0x07#8 → t.postedEntries = s.postedEntries ++ ended done
            ∧ t.control.pendingList = rest ++ [{ tag := r.tag, kind := .rstt }])
        ∧ (∀ q : QueueId, r.command = 0x03#8 → q ≠ 0 → r.queue.toNat = q.val → r.mode.toNat ≤ 1 →
            (s.queue q).state = .disabled →
            t.postedEntries = s.postedEntries ++ ended done ++ [(0, { tag := r.tag, status := .ok })]
              ∧ t.control.pendingList = rest))
end

