-- ==== Sys2Proof/Laws/Beats.lean ====
section
/-! SUPPORT. The lanes of a beat (R50): which byte travels on which lane, and which bits of the byte-lane mask are set. -/

namespace Sys2Proof.Machine

theorem BusProfile.width_cases (p : BusProfile) : p.width = 1 ∨ p.width = 2 ∨ p.width = 4 := by
  unfold BusProfile.width
  split <;> simp

/-- A lane and a byte belong together in a beat exactly when the byte is one of the beat's and the lane is its own. -/
theorem mem_beatLanes (o : Op) (p : BusProfile) (a : TargetAddr) (l j : Nat) :
    (l, j) ∈ beatLanes o p a ↔ j < beatSize o p ∧ l = laneOf p a j := by
  have fits : beatSize o p ≤ p.width := by unfold beatSize; split <;> omega
  unfold beatLanes laneOf byteOfLane
  simp only [List.mem_filter, List.mem_map, List.mem_range, Prod.mk.injEq, decide_eq_true_eq]
  constructor
  · rintro ⟨⟨m, hm, rfl, rfl⟩, hj⟩
    refine ⟨hj, ?_⟩
    rcases p.width_cases with h | h | h <;> rw [h] at hm ⊢ <;> omega
  · rintro ⟨hj, rfl⟩
    refine ⟨⟨_, Nat.mod_lt _ (by omega), rfl, ?_⟩, hj⟩
    rcases p.width_cases with h | h | h <;> rw [h] at fits ⊢ <;> omega

/-- The bits of the byte-lane mask are the lanes given. -/
theorem laneMask_getLsbD (lanes : List Nat) (i : Nat) (hi : i < 4) :
    (laneMask lanes).getLsbD i = decide (i ∈ lanes) := by
  have go : ∀ (l : List Nat) (m : BitVec 4),
      (l.foldl (fun m l => m ||| (1#4 <<< l)) m).getLsbD i = (m.getLsbD i || decide (i ∈ l)) := by
    intro l
    induction l with
    | nil => simp
    | cons x l ih =>
      intro m
      have hb : (1#4 <<< x).getLsbD i = decide (i = x) := by
        by_cases h : i = x
        · subst h; simp [hi]
        · simp [hi, h]; omega
      simp [ih, hb, Bool.or_assoc]
  simpa [laneMask] using go lanes 0

end Sys2Proof.Machine
end

