-- ==== Sys2Proof/Laws/State.lean ====
section
/-! SUPPORT. One lemma for each field of State and each named update of it, true by computing; and what a context or a queue
row reads as after an update of one. -/

namespace Sys2Proof.Machine

/-! ### elapse -/

@[simp] theorem State.elapse_clock (s : State) (n : Nat) : (s.elapse n).clock = s.clock + n := rfl
@[simp] theorem State.elapse_regs (s : State) (n : Nat) : (s.elapse n).regs = s.regs := rfl
@[simp] theorem State.elapse_queues (s : State) (n : Nat) : (s.elapse n).queues = s.queues := rfl
@[simp] theorem State.elapse_fetcher (s : State) (n : Nat) : (s.elapse n).fetcher = s.fetcher := rfl
@[simp] theorem State.elapse_port (s : State) (n : Nat) : (s.elapse n).port = s.port := rfl
@[simp] theorem State.elapse_contexts (s : State) (n : Nat) : (s.elapse n).contexts = s.contexts := rfl
@[simp] theorem State.elapse_seqCounter (s : State) (n : Nat) : (s.elapse n).seqCounter = s.seqCounter := rfl
@[simp] theorem State.elapse_cache (s : State) (n : Nat) : (s.elapse n).cache = s.cache := rfl
@[simp] theorem State.elapse_bus (s : State) (n : Nat) : (s.elapse n).bus = s.bus := rfl
@[simp] theorem State.elapse_targets (s : State) (n : Nat) : (s.elapse n).targets = s.targets := rfl
@[simp] theorem State.elapse_locks (s : State) (n : Nat) : (s.elapse n).locks = s.locks := rfl
@[simp] theorem State.elapse_pool (s : State) (n : Nat) : (s.elapse n).pool = s.pool := rfl
@[simp] theorem State.elapse_control (s : State) (n : Nat) : (s.elapse n).control = s.control := rfl
@[simp] theorem State.elapse_pending (s : State) (n : Nat) : (s.elapse n).pending = s.pending := rfl

/-! ### until -/

@[simp] theorem State.until_clock (s : State) (n : Nat) : (s.until n).clock = max s.clock n := rfl
@[simp] theorem State.until_regs (s : State) (n : Nat) : (s.until n).regs = s.regs := rfl
@[simp] theorem State.until_queues (s : State) (n : Nat) : (s.until n).queues = s.queues := rfl
@[simp] theorem State.until_fetcher (s : State) (n : Nat) : (s.until n).fetcher = s.fetcher := rfl
@[simp] theorem State.until_port (s : State) (n : Nat) : (s.until n).port = s.port := rfl
@[simp] theorem State.until_contexts (s : State) (n : Nat) : (s.until n).contexts = s.contexts := rfl
@[simp] theorem State.until_seqCounter (s : State) (n : Nat) : (s.until n).seqCounter = s.seqCounter := rfl
@[simp] theorem State.until_cache (s : State) (n : Nat) : (s.until n).cache = s.cache := rfl
@[simp] theorem State.until_bus (s : State) (n : Nat) : (s.until n).bus = s.bus := rfl
@[simp] theorem State.until_targets (s : State) (n : Nat) : (s.until n).targets = s.targets := rfl
@[simp] theorem State.until_locks (s : State) (n : Nat) : (s.until n).locks = s.locks := rfl
@[simp] theorem State.until_pool (s : State) (n : Nat) : (s.until n).pool = s.pool := rfl
@[simp] theorem State.until_control (s : State) (n : Nat) : (s.until n).control = s.control := rfl
@[simp] theorem State.until_pending (s : State) (n : Nat) : (s.until n).pending = s.pending := rfl

/-! ### untilUs -/

@[simp] theorem State.untilUs_clock (s : State) (n : Nat) : (s.untilUs n).clock = max s.clock (50 * n) := rfl
@[simp] theorem State.untilUs_regs (s : State) (n : Nat) : (s.untilUs n).regs = s.regs := rfl
@[simp] theorem State.untilUs_queues (s : State) (n : Nat) : (s.untilUs n).queues = s.queues := rfl
@[simp] theorem State.untilUs_fetcher (s : State) (n : Nat) : (s.untilUs n).fetcher = s.fetcher := rfl
@[simp] theorem State.untilUs_port (s : State) (n : Nat) : (s.untilUs n).port = s.port := rfl
@[simp] theorem State.untilUs_contexts (s : State) (n : Nat) : (s.untilUs n).contexts = s.contexts := rfl
@[simp] theorem State.untilUs_seqCounter (s : State) (n : Nat) : (s.untilUs n).seqCounter = s.seqCounter := rfl
@[simp] theorem State.untilUs_cache (s : State) (n : Nat) : (s.untilUs n).cache = s.cache := rfl
@[simp] theorem State.untilUs_bus (s : State) (n : Nat) : (s.untilUs n).bus = s.bus := rfl
@[simp] theorem State.untilUs_targets (s : State) (n : Nat) : (s.untilUs n).targets = s.targets := rfl
@[simp] theorem State.untilUs_locks (s : State) (n : Nat) : (s.untilUs n).locks = s.locks := rfl
@[simp] theorem State.untilUs_pool (s : State) (n : Nat) : (s.untilUs n).pool = s.pool := rfl
@[simp] theorem State.untilUs_control (s : State) (n : Nat) : (s.untilUs n).control = s.control := rfl
@[simp] theorem State.untilUs_pending (s : State) (n : Nat) : (s.untilUs n).pending = s.pending := rfl

/-! ### modCtx -/

@[simp] theorem State.modCtx_clock (s : State) (c : CtxId) (f : Context → Context) : (s.modCtx c f).clock = s.clock := rfl
@[simp] theorem State.modCtx_regs (s : State) (c : CtxId) (f : Context → Context) : (s.modCtx c f).regs = s.regs := rfl
@[simp] theorem State.modCtx_queues (s : State) (c : CtxId) (f : Context → Context) : (s.modCtx c f).queues = s.queues := rfl
@[simp] theorem State.modCtx_fetcher (s : State) (c : CtxId) (f : Context → Context) : (s.modCtx c f).fetcher = s.fetcher := rfl
@[simp] theorem State.modCtx_port (s : State) (c : CtxId) (f : Context → Context) : (s.modCtx c f).port = s.port := rfl
@[simp] theorem State.modCtx_contexts (s : State) (c : CtxId) (f : Context → Context) : (s.modCtx c f).contexts = s.contexts.set c (f s.contexts[c]) := rfl
@[simp] theorem State.modCtx_seqCounter (s : State) (c : CtxId) (f : Context → Context) : (s.modCtx c f).seqCounter = s.seqCounter := rfl
@[simp] theorem State.modCtx_cache (s : State) (c : CtxId) (f : Context → Context) : (s.modCtx c f).cache = s.cache := rfl
@[simp] theorem State.modCtx_bus (s : State) (c : CtxId) (f : Context → Context) : (s.modCtx c f).bus = s.bus := rfl
@[simp] theorem State.modCtx_targets (s : State) (c : CtxId) (f : Context → Context) : (s.modCtx c f).targets = s.targets := rfl
@[simp] theorem State.modCtx_locks (s : State) (c : CtxId) (f : Context → Context) : (s.modCtx c f).locks = s.locks := rfl
@[simp] theorem State.modCtx_pool (s : State) (c : CtxId) (f : Context → Context) : (s.modCtx c f).pool = s.pool := rfl
@[simp] theorem State.modCtx_control (s : State) (c : CtxId) (f : Context → Context) : (s.modCtx c f).control = s.control := rfl
@[simp] theorem State.modCtx_pending (s : State) (c : CtxId) (f : Context → Context) : (s.modCtx c f).pending = s.pending := rfl

/-! ### setPrep -/

@[simp] theorem State.setPrep_clock (s : State) (c : CtxId) (p : Prep) : (s.setPrep c p).clock = s.clock := rfl
@[simp] theorem State.setPrep_regs (s : State) (c : CtxId) (p : Prep) : (s.setPrep c p).regs = s.regs := rfl
@[simp] theorem State.setPrep_queues (s : State) (c : CtxId) (p : Prep) : (s.setPrep c p).queues = s.queues := rfl
@[simp] theorem State.setPrep_fetcher (s : State) (c : CtxId) (p : Prep) : (s.setPrep c p).fetcher = s.fetcher := rfl
@[simp] theorem State.setPrep_port (s : State) (c : CtxId) (p : Prep) : (s.setPrep c p).port = s.port := rfl
@[simp] theorem State.setPrep_contexts (s : State) (c : CtxId) (p : Prep) : (s.setPrep c p).contexts = s.contexts.set c { s.contexts[c] with prep := p } := rfl
@[simp] theorem State.setPrep_seqCounter (s : State) (c : CtxId) (p : Prep) : (s.setPrep c p).seqCounter = s.seqCounter := rfl
@[simp] theorem State.setPrep_cache (s : State) (c : CtxId) (p : Prep) : (s.setPrep c p).cache = s.cache := rfl
@[simp] theorem State.setPrep_bus (s : State) (c : CtxId) (p : Prep) : (s.setPrep c p).bus = s.bus := rfl
@[simp] theorem State.setPrep_targets (s : State) (c : CtxId) (p : Prep) : (s.setPrep c p).targets = s.targets := rfl
@[simp] theorem State.setPrep_locks (s : State) (c : CtxId) (p : Prep) : (s.setPrep c p).locks = s.locks := rfl
@[simp] theorem State.setPrep_pool (s : State) (c : CtxId) (p : Prep) : (s.setPrep c p).pool = s.pool := rfl
@[simp] theorem State.setPrep_control (s : State) (c : CtxId) (p : Prep) : (s.setPrep c p).control = s.control := rfl
@[simp] theorem State.setPrep_pending (s : State) (c : CtxId) (p : Prep) : (s.setPrep c p).pending = s.pending := rfl

/-! ### mapContexts -/

@[simp] theorem State.mapContexts_clock (s : State) (f : Context → Context) : (s.mapContexts f).clock = s.clock := rfl
@[simp] theorem State.mapContexts_regs (s : State) (f : Context → Context) : (s.mapContexts f).regs = s.regs := rfl
@[simp] theorem State.mapContexts_queues (s : State) (f : Context → Context) : (s.mapContexts f).queues = s.queues := rfl
@[simp] theorem State.mapContexts_fetcher (s : State) (f : Context → Context) : (s.mapContexts f).fetcher = s.fetcher := rfl
@[simp] theorem State.mapContexts_port (s : State) (f : Context → Context) : (s.mapContexts f).port = s.port := rfl
@[simp] theorem State.mapContexts_contexts (s : State) (f : Context → Context) : (s.mapContexts f).contexts = Vector.ofFn fun c => f s.contexts[c] := rfl
@[simp] theorem State.mapContexts_ctx (s : State) (f : Context → Context) (c : CtxId) :
    (s.mapContexts f).ctx c = f (s.ctx c) := by simp [State.ctx]
@[simp] theorem State.mapContexts_seqCounter (s : State) (f : Context → Context) : (s.mapContexts f).seqCounter = s.seqCounter := rfl
@[simp] theorem State.mapContexts_cache (s : State) (f : Context → Context) : (s.mapContexts f).cache = s.cache := rfl
@[simp] theorem State.mapContexts_bus (s : State) (f : Context → Context) : (s.mapContexts f).bus = s.bus := rfl
@[simp] theorem State.mapContexts_targets (s : State) (f : Context → Context) : (s.mapContexts f).targets = s.targets := rfl
@[simp] theorem State.mapContexts_locks (s : State) (f : Context → Context) : (s.mapContexts f).locks = s.locks := rfl
@[simp] theorem State.mapContexts_pool (s : State) (f : Context → Context) : (s.mapContexts f).pool = s.pool := rfl
@[simp] theorem State.mapContexts_control (s : State) (f : Context → Context) : (s.mapContexts f).control = s.control := rfl
@[simp] theorem State.mapContexts_pending (s : State) (f : Context → Context) : (s.mapContexts f).pending = s.pending := rfl

/-! ### modQueue -/

@[simp] theorem State.modQueue_clock (s : State) (q : QueueId) (f : QueueRow → QueueRow) : (s.modQueue q f).clock = s.clock := rfl
@[simp] theorem State.modQueue_regs (s : State) (q : QueueId) (f : QueueRow → QueueRow) : (s.modQueue q f).regs = s.regs := rfl
@[simp] theorem State.modQueue_queues (s : State) (q : QueueId) (f : QueueRow → QueueRow) : (s.modQueue q f).queues = s.queues.set q (f s.queues[q]) := rfl
@[simp] theorem State.modQueue_fetcher (s : State) (q : QueueId) (f : QueueRow → QueueRow) : (s.modQueue q f).fetcher = s.fetcher := rfl
@[simp] theorem State.modQueue_port (s : State) (q : QueueId) (f : QueueRow → QueueRow) : (s.modQueue q f).port = s.port := rfl
@[simp] theorem State.modQueue_contexts (s : State) (q : QueueId) (f : QueueRow → QueueRow) : (s.modQueue q f).contexts = s.contexts := rfl
@[simp] theorem State.modQueue_seqCounter (s : State) (q : QueueId) (f : QueueRow → QueueRow) : (s.modQueue q f).seqCounter = s.seqCounter := rfl
@[simp] theorem State.modQueue_cache (s : State) (q : QueueId) (f : QueueRow → QueueRow) : (s.modQueue q f).cache = s.cache := rfl
@[simp] theorem State.modQueue_bus (s : State) (q : QueueId) (f : QueueRow → QueueRow) : (s.modQueue q f).bus = s.bus := rfl
@[simp] theorem State.modQueue_targets (s : State) (q : QueueId) (f : QueueRow → QueueRow) : (s.modQueue q f).targets = s.targets := rfl
@[simp] theorem State.modQueue_locks (s : State) (q : QueueId) (f : QueueRow → QueueRow) : (s.modQueue q f).locks = s.locks := rfl
@[simp] theorem State.modQueue_pool (s : State) (q : QueueId) (f : QueueRow → QueueRow) : (s.modQueue q f).pool = s.pool := rfl
@[simp] theorem State.modQueue_control (s : State) (q : QueueId) (f : QueueRow → QueueRow) : (s.modQueue q f).control = s.control := rfl
@[simp] theorem State.modQueue_pending (s : State) (q : QueueId) (f : QueueRow → QueueRow) : (s.modQueue q f).pending = s.pending := rfl

/-! ### modPort -/

@[simp] theorem State.modPort_clock (s : State) (f : HostPort → HostPort) : (s.modPort f).clock = s.clock := rfl
@[simp] theorem State.modPort_regs (s : State) (f : HostPort → HostPort) : (s.modPort f).regs = s.regs := rfl
@[simp] theorem State.modPort_queues (s : State) (f : HostPort → HostPort) : (s.modPort f).queues = s.queues := rfl
@[simp] theorem State.modPort_fetcher (s : State) (f : HostPort → HostPort) : (s.modPort f).fetcher = s.fetcher := rfl
@[simp] theorem State.modPort_port (s : State) (f : HostPort → HostPort) : (s.modPort f).port = f s.port := rfl
@[simp] theorem State.modPort_contexts (s : State) (f : HostPort → HostPort) : (s.modPort f).contexts = s.contexts := rfl
@[simp] theorem State.modPort_seqCounter (s : State) (f : HostPort → HostPort) : (s.modPort f).seqCounter = s.seqCounter := rfl
@[simp] theorem State.modPort_cache (s : State) (f : HostPort → HostPort) : (s.modPort f).cache = s.cache := rfl
@[simp] theorem State.modPort_bus (s : State) (f : HostPort → HostPort) : (s.modPort f).bus = s.bus := rfl
@[simp] theorem State.modPort_targets (s : State) (f : HostPort → HostPort) : (s.modPort f).targets = s.targets := rfl
@[simp] theorem State.modPort_locks (s : State) (f : HostPort → HostPort) : (s.modPort f).locks = s.locks := rfl
@[simp] theorem State.modPort_pool (s : State) (f : HostPort → HostPort) : (s.modPort f).pool = s.pool := rfl
@[simp] theorem State.modPort_control (s : State) (f : HostPort → HostPort) : (s.modPort f).control = s.control := rfl
@[simp] theorem State.modPort_pending (s : State) (f : HostPort → HostPort) : (s.modPort f).pending = s.pending := rfl

/-! ### modBus -/

@[simp] theorem State.modBus_clock (s : State) (f : BusCtl → BusCtl) : (s.modBus f).clock = s.clock := rfl
@[simp] theorem State.modBus_regs (s : State) (f : BusCtl → BusCtl) : (s.modBus f).regs = s.regs := rfl
@[simp] theorem State.modBus_queues (s : State) (f : BusCtl → BusCtl) : (s.modBus f).queues = s.queues := rfl
@[simp] theorem State.modBus_fetcher (s : State) (f : BusCtl → BusCtl) : (s.modBus f).fetcher = s.fetcher := rfl
@[simp] theorem State.modBus_port (s : State) (f : BusCtl → BusCtl) : (s.modBus f).port = s.port := rfl
@[simp] theorem State.modBus_contexts (s : State) (f : BusCtl → BusCtl) : (s.modBus f).contexts = s.contexts := rfl
@[simp] theorem State.modBus_seqCounter (s : State) (f : BusCtl → BusCtl) : (s.modBus f).seqCounter = s.seqCounter := rfl
@[simp] theorem State.modBus_cache (s : State) (f : BusCtl → BusCtl) : (s.modBus f).cache = s.cache := rfl
@[simp] theorem State.modBus_bus (s : State) (f : BusCtl → BusCtl) : (s.modBus f).bus = f s.bus := rfl
@[simp] theorem State.modBus_targets (s : State) (f : BusCtl → BusCtl) : (s.modBus f).targets = s.targets := rfl
@[simp] theorem State.modBus_locks (s : State) (f : BusCtl → BusCtl) : (s.modBus f).locks = s.locks := rfl
@[simp] theorem State.modBus_pool (s : State) (f : BusCtl → BusCtl) : (s.modBus f).pool = s.pool := rfl
@[simp] theorem State.modBus_control (s : State) (f : BusCtl → BusCtl) : (s.modBus f).control = s.control := rfl
@[simp] theorem State.modBus_pending (s : State) (f : BusCtl → BusCtl) : (s.modBus f).pending = s.pending := rfl

/-! ### modPool -/

@[simp] theorem State.modPool_clock (s : State) (f : Pool → Pool) : (s.modPool f).clock = s.clock := rfl
@[simp] theorem State.modPool_regs (s : State) (f : Pool → Pool) : (s.modPool f).regs = s.regs := rfl
@[simp] theorem State.modPool_queues (s : State) (f : Pool → Pool) : (s.modPool f).queues = s.queues := rfl
@[simp] theorem State.modPool_fetcher (s : State) (f : Pool → Pool) : (s.modPool f).fetcher = s.fetcher := rfl
@[simp] theorem State.modPool_port (s : State) (f : Pool → Pool) : (s.modPool f).port = s.port := rfl
@[simp] theorem State.modPool_contexts (s : State) (f : Pool → Pool) : (s.modPool f).contexts = s.contexts := rfl
@[simp] theorem State.modPool_seqCounter (s : State) (f : Pool → Pool) : (s.modPool f).seqCounter = s.seqCounter := rfl
@[simp] theorem State.modPool_cache (s : State) (f : Pool → Pool) : (s.modPool f).cache = s.cache := rfl
@[simp] theorem State.modPool_bus (s : State) (f : Pool → Pool) : (s.modPool f).bus = s.bus := rfl
@[simp] theorem State.modPool_targets (s : State) (f : Pool → Pool) : (s.modPool f).targets = s.targets := rfl
@[simp] theorem State.modPool_locks (s : State) (f : Pool → Pool) : (s.modPool f).locks = s.locks := rfl
@[simp] theorem State.modPool_pool (s : State) (f : Pool → Pool) : (s.modPool f).pool = f s.pool := rfl
@[simp] theorem State.modPool_control (s : State) (f : Pool → Pool) : (s.modPool f).control = s.control := rfl
@[simp] theorem State.modPool_pending (s : State) (f : Pool → Pool) : (s.modPool f).pending = s.pending := rfl

/-! ### modLocks -/

@[simp] theorem State.modLocks_clock (s : State) (f : LockTable → LockTable) : (s.modLocks f).clock = s.clock := rfl
@[simp] theorem State.modLocks_regs (s : State) (f : LockTable → LockTable) : (s.modLocks f).regs = s.regs := rfl
@[simp] theorem State.modLocks_queues (s : State) (f : LockTable → LockTable) : (s.modLocks f).queues = s.queues := rfl
@[simp] theorem State.modLocks_fetcher (s : State) (f : LockTable → LockTable) : (s.modLocks f).fetcher = s.fetcher := rfl
@[simp] theorem State.modLocks_port (s : State) (f : LockTable → LockTable) : (s.modLocks f).port = s.port := rfl
@[simp] theorem State.modLocks_contexts (s : State) (f : LockTable → LockTable) : (s.modLocks f).contexts = s.contexts := rfl
@[simp] theorem State.modLocks_seqCounter (s : State) (f : LockTable → LockTable) : (s.modLocks f).seqCounter = s.seqCounter := rfl
@[simp] theorem State.modLocks_cache (s : State) (f : LockTable → LockTable) : (s.modLocks f).cache = s.cache := rfl
@[simp] theorem State.modLocks_bus (s : State) (f : LockTable → LockTable) : (s.modLocks f).bus = s.bus := rfl
@[simp] theorem State.modLocks_targets (s : State) (f : LockTable → LockTable) : (s.modLocks f).targets = s.targets := rfl
@[simp] theorem State.modLocks_locks (s : State) (f : LockTable → LockTable) : (s.modLocks f).locks = f s.locks := rfl
@[simp] theorem State.modLocks_pool (s : State) (f : LockTable → LockTable) : (s.modLocks f).pool = s.pool := rfl
@[simp] theorem State.modLocks_control (s : State) (f : LockTable → LockTable) : (s.modLocks f).control = s.control := rfl
@[simp] theorem State.modLocks_pending (s : State) (f : LockTable → LockTable) : (s.modLocks f).pending = s.pending := rfl

/-! ### modCache -/

@[simp] theorem State.modCache_clock (s : State) (f : ProfileCache → ProfileCache) : (s.modCache f).clock = s.clock := rfl
@[simp] theorem State.modCache_regs (s : State) (f : ProfileCache → ProfileCache) : (s.modCache f).regs = s.regs := rfl
@[simp] theorem State.modCache_queues (s : State) (f : ProfileCache → ProfileCache) : (s.modCache f).queues = s.queues := rfl
@[simp] theorem State.modCache_fetcher (s : State) (f : ProfileCache → ProfileCache) : (s.modCache f).fetcher = s.fetcher := rfl
@[simp] theorem State.modCache_port (s : State) (f : ProfileCache → ProfileCache) : (s.modCache f).port = s.port := rfl
@[simp] theorem State.modCache_contexts (s : State) (f : ProfileCache → ProfileCache) : (s.modCache f).contexts = s.contexts := rfl
@[simp] theorem State.modCache_seqCounter (s : State) (f : ProfileCache → ProfileCache) : (s.modCache f).seqCounter = s.seqCounter := rfl
@[simp] theorem State.modCache_cache (s : State) (f : ProfileCache → ProfileCache) : (s.modCache f).cache = f s.cache := rfl
@[simp] theorem State.modCache_bus (s : State) (f : ProfileCache → ProfileCache) : (s.modCache f).bus = s.bus := rfl
@[simp] theorem State.modCache_targets (s : State) (f : ProfileCache → ProfileCache) : (s.modCache f).targets = s.targets := rfl
@[simp] theorem State.modCache_locks (s : State) (f : ProfileCache → ProfileCache) : (s.modCache f).locks = s.locks := rfl
@[simp] theorem State.modCache_pool (s : State) (f : ProfileCache → ProfileCache) : (s.modCache f).pool = s.pool := rfl
@[simp] theorem State.modCache_control (s : State) (f : ProfileCache → ProfileCache) : (s.modCache f).control = s.control := rfl
@[simp] theorem State.modCache_pending (s : State) (f : ProfileCache → ProfileCache) : (s.modCache f).pending = s.pending := rfl

/-! ### modControl -/

@[simp] theorem State.modControl_clock (s : State) (f : ControlUnit → ControlUnit) : (s.modControl f).clock = s.clock := rfl
@[simp] theorem State.modControl_regs (s : State) (f : ControlUnit → ControlUnit) : (s.modControl f).regs = s.regs := rfl
@[simp] theorem State.modControl_queues (s : State) (f : ControlUnit → ControlUnit) : (s.modControl f).queues = s.queues := rfl
@[simp] theorem State.modControl_fetcher (s : State) (f : ControlUnit → ControlUnit) : (s.modControl f).fetcher = s.fetcher := rfl
@[simp] theorem State.modControl_port (s : State) (f : ControlUnit → ControlUnit) : (s.modControl f).port = s.port := rfl
@[simp] theorem State.modControl_contexts (s : State) (f : ControlUnit → ControlUnit) : (s.modControl f).contexts = s.contexts := rfl
@[simp] theorem State.modControl_seqCounter (s : State) (f : ControlUnit → ControlUnit) : (s.modControl f).seqCounter = s.seqCounter := rfl
@[simp] theorem State.modControl_cache (s : State) (f : ControlUnit → ControlUnit) : (s.modControl f).cache = s.cache := rfl
@[simp] theorem State.modControl_bus (s : State) (f : ControlUnit → ControlUnit) : (s.modControl f).bus = s.bus := rfl
@[simp] theorem State.modControl_targets (s : State) (f : ControlUnit → ControlUnit) : (s.modControl f).targets = s.targets := rfl
@[simp] theorem State.modControl_locks (s : State) (f : ControlUnit → ControlUnit) : (s.modControl f).locks = s.locks := rfl
@[simp] theorem State.modControl_pool (s : State) (f : ControlUnit → ControlUnit) : (s.modControl f).pool = s.pool := rfl
@[simp] theorem State.modControl_control (s : State) (f : ControlUnit → ControlUnit) : (s.modControl f).control = f s.control := rfl
@[simp] theorem State.modControl_pending (s : State) (f : ControlUnit → ControlUnit) : (s.modControl f).pending = s.pending := rfl

/-! ### modRegs -/

@[simp] theorem State.modRegs_clock (s : State) (f : Regs → Regs) : (s.modRegs f).clock = s.clock := rfl
@[simp] theorem State.modRegs_regs (s : State) (f : Regs → Regs) : (s.modRegs f).regs = f s.regs := rfl
@[simp] theorem State.modRegs_queues (s : State) (f : Regs → Regs) : (s.modRegs f).queues = s.queues := rfl
@[simp] theorem State.modRegs_fetcher (s : State) (f : Regs → Regs) : (s.modRegs f).fetcher = s.fetcher := rfl
@[simp] theorem State.modRegs_port (s : State) (f : Regs → Regs) : (s.modRegs f).port = s.port := rfl
@[simp] theorem State.modRegs_contexts (s : State) (f : Regs → Regs) : (s.modRegs f).contexts = s.contexts := rfl
@[simp] theorem State.modRegs_seqCounter (s : State) (f : Regs → Regs) : (s.modRegs f).seqCounter = s.seqCounter := rfl
@[simp] theorem State.modRegs_cache (s : State) (f : Regs → Regs) : (s.modRegs f).cache = s.cache := rfl
@[simp] theorem State.modRegs_bus (s : State) (f : Regs → Regs) : (s.modRegs f).bus = s.bus := rfl
@[simp] theorem State.modRegs_targets (s : State) (f : Regs → Regs) : (s.modRegs f).targets = s.targets := rfl
@[simp] theorem State.modRegs_locks (s : State) (f : Regs → Regs) : (s.modRegs f).locks = s.locks := rfl
@[simp] theorem State.modRegs_pool (s : State) (f : Regs → Regs) : (s.modRegs f).pool = s.pool := rfl
@[simp] theorem State.modRegs_control (s : State) (f : Regs → Regs) : (s.modRegs f).control = s.control := rfl
@[simp] theorem State.modRegs_pending (s : State) (f : Regs → Regs) : (s.modRegs f).pending = s.pending := rfl

/-! ### setTag -/

@[simp] theorem State.setTag_clock (s : State) (i : TagId) (t : Tag) : (s.setTag i t).clock = s.clock := rfl
@[simp] theorem State.setTag_regs (s : State) (i : TagId) (t : Tag) : (s.setTag i t).regs = s.regs := rfl
@[simp] theorem State.setTag_queues (s : State) (i : TagId) (t : Tag) : (s.setTag i t).queues = s.queues := rfl
@[simp] theorem State.setTag_fetcher (s : State) (i : TagId) (t : Tag) : (s.setTag i t).fetcher = s.fetcher := rfl
@[simp] theorem State.setTag_port (s : State) (i : TagId) (t : Tag) : (s.setTag i t).port = { s.port with tags := s.port.tags.set i t } := rfl
@[simp] theorem State.setTag_contexts (s : State) (i : TagId) (t : Tag) : (s.setTag i t).contexts = s.contexts := rfl
@[simp] theorem State.setTag_seqCounter (s : State) (i : TagId) (t : Tag) : (s.setTag i t).seqCounter = s.seqCounter := rfl
@[simp] theorem State.setTag_cache (s : State) (i : TagId) (t : Tag) : (s.setTag i t).cache = s.cache := rfl
@[simp] theorem State.setTag_bus (s : State) (i : TagId) (t : Tag) : (s.setTag i t).bus = s.bus := rfl
@[simp] theorem State.setTag_targets (s : State) (i : TagId) (t : Tag) : (s.setTag i t).targets = s.targets := rfl
@[simp] theorem State.setTag_locks (s : State) (i : TagId) (t : Tag) : (s.setTag i t).locks = s.locks := rfl
@[simp] theorem State.setTag_pool (s : State) (i : TagId) (t : Tag) : (s.setTag i t).pool = s.pool := rfl
@[simp] theorem State.setTag_control (s : State) (i : TagId) (t : Tag) : (s.setTag i t).control = s.control := rfl
@[simp] theorem State.setTag_pending (s : State) (i : TagId) (t : Tag) : (s.setTag i t).pending = s.pending := rfl

/-! ### setFetch -/

@[simp] theorem State.setFetch_clock (s : State) (q : QueueId) (r : Option FetchRecord) : (s.setFetch q r).clock = s.clock := rfl
@[simp] theorem State.setFetch_regs (s : State) (q : QueueId) (r : Option FetchRecord) : (s.setFetch q r).regs = s.regs := rfl
@[simp] theorem State.setFetch_queues (s : State) (q : QueueId) (r : Option FetchRecord) : (s.setFetch q r).queues = s.queues := rfl
@[simp] theorem State.setFetch_fetcher (s : State) (q : QueueId) (r : Option FetchRecord) : (s.setFetch q r).fetcher = { s.fetcher with records := s.fetcher.records.set (fetchIndex q) r } := rfl
@[simp] theorem State.setFetch_port (s : State) (q : QueueId) (r : Option FetchRecord) : (s.setFetch q r).port = s.port := rfl
@[simp] theorem State.setFetch_contexts (s : State) (q : QueueId) (r : Option FetchRecord) : (s.setFetch q r).contexts = s.contexts := rfl
@[simp] theorem State.setFetch_seqCounter (s : State) (q : QueueId) (r : Option FetchRecord) : (s.setFetch q r).seqCounter = s.seqCounter := rfl
@[simp] theorem State.setFetch_cache (s : State) (q : QueueId) (r : Option FetchRecord) : (s.setFetch q r).cache = s.cache := rfl
@[simp] theorem State.setFetch_bus (s : State) (q : QueueId) (r : Option FetchRecord) : (s.setFetch q r).bus = s.bus := rfl
@[simp] theorem State.setFetch_targets (s : State) (q : QueueId) (r : Option FetchRecord) : (s.setFetch q r).targets = s.targets := rfl
@[simp] theorem State.setFetch_locks (s : State) (q : QueueId) (r : Option FetchRecord) : (s.setFetch q r).locks = s.locks := rfl
@[simp] theorem State.setFetch_pool (s : State) (q : QueueId) (r : Option FetchRecord) : (s.setFetch q r).pool = s.pool := rfl
@[simp] theorem State.setFetch_control (s : State) (q : QueueId) (r : Option FetchRecord) : (s.setFetch q r).control = s.control := rfl
@[simp] theorem State.setFetch_pending (s : State) (q : QueueId) (r : Option FetchRecord) : (s.setFetch q r).pending = s.pending := rfl

/-! ### One context, one queue row, one tag -/

@[simp] theorem State.ctx_modCtx_self (s : State) (c : CtxId) (f : Context → Context) :
    (s.modCtx c f).ctx c = f (s.ctx c) := by
  simp [State.ctx]

theorem State.ctx_modCtx_ne (s : State) {c d : CtxId} (f : Context → Context) (h : d ≠ c) :
    (s.modCtx c f).ctx d = s.ctx d := by
  have hv : c.val ≠ d.val := fun e => h (Fin.ext e.symm)
  simp [State.ctx, Vector.getElem_set_ne, hv]

@[simp] theorem State.queue_modQueue_self (s : State) (q : QueueId) (f : QueueRow → QueueRow) :
    (s.modQueue q f).queue q = f (s.queue q) := by
  simp [State.queue]

theorem State.queue_modQueue_ne (s : State) {q r : QueueId} (f : QueueRow → QueueRow) (h : r ≠ q) :
    (s.modQueue q f).queue r = s.queue r := by
  have hv : q.val ≠ r.val := fun e => h (Fin.ext e.symm)
  simp [State.queue, Vector.getElem_set_ne, hv]

@[simp] theorem State.ctx_mapContexts (s : State) (f : Context → Context) (c : CtxId) :
    (s.mapContexts f).ctx c = f (s.ctx c) := by
  simp [State.ctx]

theorem State.tag_setTag_self (s : State) (i : TagId) (t : Tag) : (s.setTag i t).port.tags[i] = t := by
  simp

theorem State.tag_setTag_ne (s : State) {i j : TagId} (t : Tag) (h : j ≠ i) :
    (s.setTag i t).port.tags[j] = s.port.tags[j] := by
  have hv : i.val ≠ j.val := fun e => h (Fin.ext e.symm)
  simp [Vector.getElem_set_ne, hv]

end Sys2Proof.Machine
end

