-- ==== Sys2Proof/Laws/Frame.lean ====
section
/-! SUPPORT. What the Transaction Engine, the Staging Pool, the Lock Table and the Profile Cache's lookups never touch: one
lemma for each of their operations. A later proof cites these and unfolds none of them. -/

namespace Sys2Proof.Machine

/-- A fold keeps what each of its steps keeps. -/
theorem foldl_keeps {α β : Type} (p : State → β) (f : State → α → State) (h : ∀ s a, p (f s a) = p s) (l : List α)
    (s : State) : p (l.foldl f s) = p s := by
  induction l generalizing s with
  | nil => rfl
  | cons a rest ih => rw [List.foldl_cons, ih, h]

/-! ### Updates of contexts, cache, locks and lists -/

@[simp] theorem outside_modCtx (s : State) (c : CtxId) (f : Context → Context) : (s.modCtx c f).outside = s.outside := rfl

@[simp] theorem outside_setPrep (s : State) (c : CtxId) (p : Prep) : (s.setPrep c p).outside = s.outside := rfl

@[simp] theorem outside_mapContexts (s : State) (f : Context → Context) : (s.mapContexts f).outside = s.outside := rfl

@[simp] theorem outside_modCache (s : State) (f : ProfileCache → ProfileCache) : (s.modCache f).outside = s.outside := rfl

@[simp] theorem outside_modRow (s : State) (t : TargetId) (f : FetchRow → FetchRow) : (s.modRow t f).outside = s.outside :=
  rfl

@[simp] theorem outside_modLocks (s : State) (f : LockTable → LockTable) : (s.modLocks f).outside = s.outside := rfl

@[simp] theorem outside_setChunk (s : State) (k : ChunkId) (h : Option ChunkHold) : (s.setChunk k h).outside = s.outside :=
  rfl

@[simp] theorem outside_dropReads (s : State) (p : ReadRef → Bool) : (s.dropReads p).outside = s.outside := rfl

@[simp] theorem outside_listReads (s : State) (c : CtxId) (k : ChunkId) (o : Op) (g : Segment) :
    (s.listReads c k o g).outside = s.outside := rfl

@[simp] theorem outside_leavePool (s : State) (c : CtxId) : (s.leavePool c).outside = s.outside := rfl

@[simp] theorem outside_listLoad (s : State) (t : TargetId) : (s.listLoad t).outside = s.outside := rfl

/-- A change of the pool's chunks and lists alone. -/
@[simp] theorem outside_modPool (s : State) (f : Pool → Pool) (h : (f s.pool).memory = s.pool.memory) :
    (s.modPool f).outside = s.outside := by
  simp [State.outside, h]

/-! ### Staging Pool and Lock Table -/

@[simp] theorem outside_grantChunk (s : State) (c : CtxId) (k : ChunkId) (r : Role) (o : Op) (g : Segment) :
    (s.grantChunk c k r o g).1.outside = s.outside := by
  unfold State.grantChunk
  split <;> simp

@[simp] theorem outside_grantFirst (s : State) (c : CtxId) (k : ChunkId) : (s.grantFirst c k).outside = s.outside := by
  unfold State.grantFirst
  split
  · split <;> simp
  · rfl

@[simp] theorem outside_claimFirst (s : State) (c : CtxId) : (s.claimFirst c).outside = s.outside := by
  unfold State.claimFirst
  dsimp only
  split
  · simp
  · split
    · simp
    · split <;> simp

@[simp] theorem outside_reclaim (s : State) : s.reclaim.outside = s.outside := by
  unfold State.reclaim
  rw [foldl_keeps State.outside _ outside_claimFirst]
  simp

@[simp] theorem outside_lockGrant (s : State) (w : LockWaiter) : (s.lockGrant w).outside = s.outside := by
  simp [State.lockGrant]

@[simp] theorem outside_lockVisit (s : State) (kept l : List LockWaiter) : (s.lockVisit kept l).outside = s.outside := by
  induction l generalizing s kept with
  | nil => simp [State.lockVisit]
  | cons w rest ih =>
    unfold State.lockVisit
    split <;> simp [ih]

@[simp] theorem outside_lockEvaluate (s : State) : s.lockEvaluate.outside = s.outside := by
  unfold State.lockEvaluate
  split
  · rfl
  · dsimp only
    split <;> simp

@[simp] theorem outside_lockJoin (s : State) (c : CtxId) : (s.lockJoin c).outside = s.outside := by
  simp [State.lockJoin]

@[simp] theorem outside_lockLeave (s : State) (c : CtxId) : (s.lockLeave c).outside = s.outside := by
  simp [State.lockLeave]

@[simp] theorem outside_lockRelease (s : State) (c : CtxId) : (s.lockRelease c).outside = s.outside := by
  simp [State.lockRelease]

@[simp] theorem outside_offer (s : State) (k : ChunkId) (l : List Claim) : (s.offer k l).outside = s.outside := by
  induction l generalizing s with
  | nil => simp [State.offer]
  | cons m rest ih =>
    unfold State.offer
    split
    · simp
    · simp [ih]

@[simp] theorem outside_wake (s : State) (c : CtxId) : (s.wake c).outside = s.outside := by
  unfold State.wake
  repeat' split
  all_goals simp

@[simp] theorem outside_freeChunk (s : State) (k : ChunkId) : (s.freeChunk k).outside = s.outside := by
  unfold State.freeChunk
  split
  · rfl
  · dsimp only
    split <;> simp

@[simp] theorem outside_freeIfDone (s : State) (k : ChunkId) : (s.freeIfDone k).outside = s.outside := by
  unfold State.freeIfDone
  repeat' split
  all_goals simp

@[simp] theorem outside_endChunk (s : State) (k : ChunkId) : (s.endChunk k).outside = s.outside := by
  unfold State.endChunk
  split <;> simp

@[simp] theorem outside_endRole (s : State) (c : CtxId) (r : Role) : (s.endRole c r).outside = s.outside := by
  unfold State.endRole
  split <;> simp

@[simp] theorem outside_discardStaged (s : State) (c : CtxId) : (s.discardStaged c).outside = s.outside := by
  simp [State.discardStaged]

@[simp] theorem outside_claimSecond (s : State) (c : CtxId) : (s.claimSecond c).outside = s.outside := by
  unfold State.claimSecond
  dsimp only
  split
  · split
    · split <;> simp
    · rfl
  · rfl

/-! ### Transaction Engine -/

@[simp] theorem outside_complete (s : State) (c : CtxId) (st : Status) (e : Option Status) :
    (s.complete c st e).outside = s.outside := by
  simp [State.complete]

@[simp] theorem outside_completeAborted (s : State) (c : CtxId) : (s.completeAborted c).outside = s.outside := by
  simp [State.completeAborted]

@[simp] theorem outside_nextOp (s : State) (c : CtxId) : (s.nextOp c).outside = s.outside := by
  unfold State.nextOp
  dsimp only
  repeat' split
  all_goals simp

@[simp] theorem outside_endOp (s : State) (c : CtxId) (f : Option Status) (b : Bool) :
    (s.endOp c f b).outside = s.outside := by
  unfold State.endOp
  dsimp only
  repeat' split
  all_goals simp

@[simp] theorem outside_failOp (s : State) (c : CtxId) (e : Status) : (s.failOp c e).outside = s.outside := by
  simp [State.failOp]

@[simp] theorem outside_touch (s : State) (e : EntryId) : (s.touch e).outside = s.outside := rfl

@[simp] theorem outside_joinRow (s : State) (c : CtxId) (t : TargetId) : (s.joinRow c t).outside = s.outside := by
  unfold State.joinRow
  split <;> simp

@[simp] theorem outside_lookup (s : State) (c : CtxId) (t : TargetId) (b : Bool) :
    (s.lookup c t b).outside = s.outside := by
  unfold State.lookup
  repeat' split
  all_goals simp

@[simp] theorem outside_resetFails (s : State) (c : CtxId) : (s.resetFails c).outside = s.outside := by
  unfold State.resetFails
  dsimp only
  split <;> simp

@[simp] theorem outside_prepReady (s : State) (c : CtxId) : (s.prepReady c).outside = s.outside := by
  unfold State.prepReady
  dsimp only
  repeat' split
  all_goals simp

@[simp] theorem outside_prepData (s : State) (c : CtxId) : (s.prepData c).outside = s.outside := by
  unfold State.prepData
  dsimp only
  repeat' split
  all_goals simp

@[simp] theorem outside_readAgain (s : State) (c : CtxId) (k : ChunkId) (o : Op) (g : Segment) :
    (s.readAgain c k o g).1.outside = s.outside := by
  unfold State.readAgain
  dsimp only
  split <;> simp

@[simp] theorem outside_prepCut (s : State) (c : CtxId) : (s.prepCut c).outside = s.outside := by
  unfold State.prepCut
  dsimp only
  repeat' split
  all_goals simp

@[simp] theorem outside_prepChecks (s : State) (c : CtxId) : (s.prepChecks c).outside = s.outside := by
  unfold State.prepChecks
  dsimp only
  repeat' split
  all_goals simp

@[simp] theorem outside_prepJudge (s : State) (c : CtxId) (b : Bool) : (s.prepJudge c b).outside = s.outside := by
  unfold State.prepJudge
  dsimp only
  repeat' split
  all_goals simp

@[simp] theorem outside_prepLookup (s : State) (c : CtxId) : (s.prepLookup c).outside = s.outside := by
  unfold State.prepLookup
  dsimp only
  repeat' split
  all_goals simp

@[simp] theorem outside_prepStart (s : State) (c : CtxId) : (s.prepStart c).outside = s.outside := by
  unfold State.prepStart
  split <;> simp

@[simp] theorem outside_prepClaim (s : State) (c : CtxId) : (s.prepClaim c).outside = s.outside := by
  unfold State.prepClaim
  repeat' split
  all_goals simp

@[simp] theorem outside_prepare (s : State) (c : CtxId) : (s.prepare c).outside = s.outside := by
  unfold State.prepare
  split <;> simp

@[simp] theorem outside_settleFor (n : Nat) (s : State) : (s.settleFor n).outside = s.outside := by
  induction n generalizing s with
  | zero => rfl
  | succ n ih =>
    unfold State.settleFor
    split
    · rfl
    · rw [ih, outside_prepare]

/-- Everything a settling can do stays within the contexts, chunks, locks, cache and the lists of reads. -/
@[simp] theorem outside_settle (s : State) : s.settle.outside = s.outside := by
  unfold State.settle
  split <;> simp

@[simp] theorem outside_finishAbort (s : State) (c : CtxId) : (s.finishAbort c).outside = s.outside := by
  unfold State.finishAbort
  split <;> simp

@[simp] theorem outside_abort (s : State) (c : CtxId) : (s.abort c).outside = s.outside := by
  unfold State.abort
  dsimp only
  repeat' split
  all_goals simp

/-! ### Fences, loads and profile returns -/

@[simp] theorem outside_beginTransaction (s : State) (c : CtxId) : (s.beginTransaction c).outside = s.outside := by
  unfold State.beginTransaction
  split <;> simp

@[simp] theorem outside_fenceTest (s : State) (c : CtxId) : (s.fenceTest c).outside = s.outside := by
  unfold State.fenceTest
  split <;> simp

@[simp] theorem outside_fenceRelease (s : State) (q : QueueId) : (s.fenceRelease q).outside = s.outside :=
  foldl_keeps State.outside _ outside_fenceTest _ _

@[simp] theorem outside_accept (s : State) (c : CtxId) (l : List Op) : (s.accept c l).outside = s.outside := by
  unfold State.accept
  dsimp only
  split <;> simp

@[simp] theorem outside_loadOutcome (s : State) (c : CtxId) (h : LoadEnd) : (s.loadOutcome c h).outside = s.outside := by
  unfold State.loadOutcome
  dsimp only
  repeat' split
  all_goals simp

@[simp] theorem outside_emptyEntry (s : State) (t : TargetId) : (s.emptyEntry t).outside = s.outside := rfl

@[simp] theorem outside_fill (s : State) (t : TargetId) (p : Profile) : (s.fill t p).outside = s.outside := by
  unfold State.fill
  dsimp only
  split <;> simp

/-- The end of a profile load reaches the cache and the contexts alone (R93, R95 to R97). -/
@[simp] theorem outside_profileReturned (s : State) (t : TargetId) (r : Response) :
    (s.profileReturned t r).outside = s.outside := by
  unfold State.profileReturned
  dsimp only
  rw [outside_settle, foldl_keeps State.outside _ outside_finishAbort]
  repeat' split
  all_goals first
    | simp; done
    | (rw [foldl_keeps State.outside _ (fun _ _ => by simp)]; simp)

end Sys2Proof.Machine
end

