-- ==== Sys2Proof/Laws/BusFrame.lean ====
section
/-! SUPPORT. What the owner's handling of the end of its access and an invalidation never touch; and what the operations of
the bus itself never touch. -/

namespace Sys2Proof.Machine

/-- The state an owner's handling of its access end and an invalidation leave alone: all that is outside contexts, chunks,
locks and cache, but for the window with its select and the posted writes. -/
structure Steady where
  clock : Nat
  regs : Regs
  queues : Vector QueueRow 9
  fetcher : Fetcher
  seqCounter : BitVec 32
  busState : BusState
  treset : Bool
  arbiter : Nat × Nat × Nat
  turnOff : Option (TargetId × Nat)
  pulses : Bool × Nat × Nat
  targets : Vector TargetRow 16
  control : ControlUnit
  pending : List Instr
  memory : Memory
  tags : Vector Tag 8
  classPtr : Option ReqClass
  fetcherReads : List ReadReq
  controlReads : List ReadReq

def Outside.steady (o : Outside) : Steady where
  clock := o.clock
  regs := o.regs
  queues := o.queues
  fetcher := o.fetcher
  seqCounter := o.seqCounter
  busState := o.bus.state
  treset := o.bus.pins.treset
  arbiter := (o.bus.lastQueue, o.bus.queueRun, o.bus.localityRun)
  turnOff := o.bus.turnOff
  pulses := (o.bus.pulsePending, o.bus.attachedNow, o.bus.attachedNext)
  targets := o.targets
  control := o.control
  pending := o.pending
  memory := o.memory
  tags := o.tags
  classPtr := o.classPtr
  fetcherReads := o.fetcherReads
  controlReads := o.controlReads

def State.steady (s : State) : Steady := s.outside.steady

theorem steady_of_outside {s t : State} (h : t.outside = s.outside) : t.steady = s.steady := by
  simp [State.steady, h]

/-! ### Invalidation -/

@[simp] theorem steady_closeWindow (s : State) : s.closeWindow.steady = s.steady := rfl

@[simp] theorem steady_windowInvalidate (s : State) (t : TargetId) : (s.windowInvalidate t).steady = s.steady := by
  unfold State.windowInvalidate
  dsimp only
  repeat' split
  all_goals rfl

@[simp] theorem steady_invalidate (s : State) (t : TargetId) : (s.invalidate t).steady = s.steady := by
  unfold State.invalidate
  dsimp only
  rw [steady_of_outside (outside_mapContexts _ _), steady_windowInvalidate]
  exact steady_of_outside (by simp)

@[simp] theorem steady_invalidateAll (s : State) : s.invalidateAll.steady = s.steady :=
  foldl_keeps State.steady _ steady_invalidate _ _

/-! ### Posted writes of an access -/

@[simp] theorem steady_handWrite (s : State) (w : PostedWrite) : (s.handWrite w).steady = s.steady := by
  unfold State.handWrite State.modPort
  dsimp only
  split <;> rfl

@[simp] theorem steady_handData (s : State) (c : CtxId) (o : Op) (g : Segment) (n : Nat) :
    (s.handData c o g n).steady = s.steady := by
  unfold State.handData
  split
  · rfl
  · split
    · rfl
    · exact foldl_keeps State.steady _ (fun _ _ => steady_handWrite _ _) _ _

/-! ### The owner -/

theorem steady_frame {s t u : State} (h : u.outside = t.outside) (h' : t.steady = s.steady) : u.steady = s.steady :=
  (steady_of_outside h).trans h'

@[simp] theorem outside_ownerPrepares (s : State) (c : CtxId) : (s.ownerPrepares c).outside = s.outside := by
  unfold State.ownerPrepares
  split <;> simp

@[simp] theorem outside_ownerWaits (s : State) (c : CtxId) (k : TimerKind) (n : Nat) :
    (s.ownerWaits c k n).outside = s.outside := by
  unfold State.ownerWaits
  split <;> simp

@[simp] theorem outside_setRole (s : State) (k : ChunkId) (r : Role) : (s.setRole k r).outside = s.outside := rfl

@[simp] theorem outside_nextSegmentBegins (s : State) (c : CtxId) : (s.nextSegmentBegins c).outside = s.outside := by
  unfold State.nextSegmentBegins
  dsimp only
  split
  · simp
  · split <;> simp

@[simp] theorem outside_segmentEnds (s : State) (c : CtxId) : (s.segmentEnds c).outside = s.outside := by
  unfold State.segmentEnds
  dsimp only
  repeat' split
  all_goals simp

@[simp] theorem outside_attemptEnds (s : State) (c : CtxId) (o : Op) : (s.attemptEnds c o).outside = s.outside := by
  unfold State.attemptEnds
  dsimp only
  repeat' split
  all_goals simp

@[simp] theorem steady_countShort (s : State) (c : CtxId) (o : Op) (g : Segment) (n : Nat) :
    (s.countShort c o g n).steady = s.steady := by
  unfold State.countShort
  dsimp only
  split
  · rfl
  · split
    · rw [steady_handData]; exact steady_of_outside (by simp)
    · exact steady_of_outside (by simp)

@[simp] theorem steady_ownerDone (s : State) (c : CtxId) (o : Op) (g : Segment) (n : Nat) :
    (s.ownerDone c o g n).steady = s.steady := by
  unfold State.ownerDone
  dsimp only
  split
  · exact steady_of_outside (by simp)
  · split
    · exact steady_of_outside (by simp)
    · refine steady_frame (outside_segmentEnds _ _) ?_
      split
      · rw [steady_handData]; exact steady_of_outside (by simp)
      · exact steady_of_outside (by simp)

@[simp] theorem steady_ownerFlow (s : State) (c : CtxId) (o : Op) (g : Segment) (n : Nat) :
    (s.ownerFlow c o g n).steady = s.steady := by
  unfold State.ownerFlow
  dsimp only
  repeat' split
  all_goals exact steady_frame (t := s.countShort c o g n) (by simp) (steady_countShort s c o g n)

@[simp] theorem outside_ownerRetry (s : State) (c : CtxId) (g : Segment) : (s.ownerRetry c g).outside = s.outside := by
  unfold State.ownerRetry
  dsimp only
  split <;> simp

@[simp] theorem steady_ownerRelease (s : State) (c : CtxId) (t : TargetId) :
    (s.ownerRelease c t).steady = s.steady := by
  unfold State.ownerRelease
  dsimp only
  split
  · refine steady_frame (outside_failOp _ _ _) ?_
    rw [steady_invalidate]; exact steady_of_outside (by simp)
  · refine steady_frame (outside_ownerPrepares _ _) ?_
    rw [steady_invalidate]; exact steady_of_outside (by simp)

/-- What an owner does with the end of its access stays within contexts, chunks, locks, cache, window and posted writes. -/
@[simp] theorem steady_ownerEnd (s : State) (a : Access) (how : AccessEnd) : (s.ownerEnd a how).steady = s.steady := by
  unfold State.ownerEnd
  dsimp only
  have key : (s.modCtx a.owner fun x => { x with begun := true }).steady = s.steady := rfl
  split
  · split
    · rw [steady_ownerDone, key]
    · exact steady_frame (outside_ownerRetry _ _ _) key
    · exact steady_frame (by simp) key
    · rw [steady_ownerRelease, key]
    · rw [steady_ownerFlow, key]
    · refine steady_frame ((outside_failOp _ _ _).trans (outside_discardStaged _ _)) ?_
      rw [steady_countShort, key]
  · exact key

end Sys2Proof.Machine
end

