-- ==== Sys2Proof/Laws/ControlFrame.lean ====
section
/-! SUPPORT. What the Queue Manager, the Record Fetcher and the Control Unit never touch: one lemma for each of their
operations, by two views of a state. `still` leaves out what a control command may reach on the bus; `calm` has it. -/

namespace Sys2Proof.Machine

/-- What no queue, fetch or control operation touches: time, commands, staging bytes, tags, and the registers but for the
HALTED mask. -/
structure Still where
  clock : Nat
  pending : List Instr
  memory : Memory
  tags : Vector Tag 8
  regs : Regs

def State.still (s : State) : Still where
  clock := s.clock
  pending := s.pending
  memory := s.pool.memory
  tags := s.port.tags
  regs := { s.regs with haltedMask := 0 }

/-- `still` with the bus and the target states. -/
structure Calm where
  still : Still
  bus : BusCtl
  targets : Vector TargetRow 16

def State.calm (s : State) : Calm where
  still := s.still
  bus := s.bus
  targets := s.targets

theorem calm_of_outside {s t : State} (h : t.outside = s.outside) : t.calm = s.calm := by
  have e : ∀ u : State, u.calm = ⟨⟨u.outside.clock, u.outside.pending, u.outside.memory, u.outside.tags,
    { u.outside.regs with haltedMask := 0 }⟩, u.outside.bus, u.outside.targets⟩ := fun _ => rfl
  rw [e, e, h]

theorem still_of_calm {s t : State} (h : t.calm = s.calm) : t.still = s.still := congrArg Calm.still h

theorem still_of_steady {s t : State} (h : t.steady = s.steady) : t.still = s.still := by
  have e : ∀ u : State, u.still = ⟨u.steady.clock, u.steady.pending, u.steady.memory, u.steady.tags,
    { u.steady.regs with haltedMask := 0 }⟩ := fun _ => rfl
  rw [e, e, h]

theorem still_of_outside {s t : State} (h : t.outside = s.outside) : t.still = s.still :=
  still_of_calm (calm_of_outside h)

theorem calm_frame {s t u : State} (h : u.outside = t.outside) (h' : t.calm = s.calm) : u.calm = s.calm :=
  (calm_of_outside h).trans h'

/-! ### Queue Manager -/

@[simp] theorem calm_modQueue (s : State) (q : QueueId) (f : QueueRow → QueueRow) : (s.modQueue q f).calm = s.calm := rfl

@[simp] theorem calm_modControl (s : State) (f : ControlUnit → ControlUnit) : (s.modControl f).calm = s.calm := rfl

@[simp] theorem calm_modCtx (s : State) (c : CtxId) (f : Context → Context) : (s.modCtx c f).calm = s.calm := rfl

@[simp] theorem calm_setFetch (s : State) (q : QueueId) (r : Option FetchRecord) : (s.setFetch q r).calm = s.calm := rfl

@[simp] theorem calm_modPort (s : State) (f : HostPort → HostPort) (h : (f s.port).tags = s.port.tags) :
    (s.modPort f).calm = s.calm := by
  simp [State.calm, State.still, h]

@[simp] theorem calm_reserve (s : State) (q : QueueId) : (s.reserve q).calm = s.calm := rfl

@[simp] theorem calm_refuse (s : State) (q : QueueId) : (s.refuse q).calm = s.calm := rfl

@[simp] theorem calm_giveBack (s : State) (q : QueueId) : (s.giveBack q).calm = s.calm := rfl

@[simp] theorem calm_handWrite (s : State) (w : PostedWrite) : (s.handWrite w).calm = s.calm := by
  unfold State.handWrite
  exact calm_modPort _ _ (by split <;> rfl)

@[simp] theorem calm_popWrite (s : State) : s.popWrite.calm = s.calm := by
  unfold State.popWrite
  exact calm_modPort _ _ (by split <;> rfl)

@[simp] theorem calm_handEntry (s : State) (q : QueueId) (c : Option CtxId) (n : Bool) (e : Entry) :
    (s.handEntry q c n e).calm = s.calm := by
  simp [State.handEntry]

@[simp] theorem calm_oweMessage (s : State) (q : QueueId) : (s.oweMessage q).calm = s.calm := by
  unfold State.oweMessage
  repeat' split
  all_goals simp

@[simp] theorem calm_oweNotice (s : State) : s.oweNotice.calm = s.calm := by
  unfold State.oweNotice
  repeat' split
  all_goals simp

@[simp] theorem calm_moderate (s : State) (q : QueueId) (n : Bool) : (s.moderate q n).calm = s.calm := by
  unfold State.moderate
  dsimp only
  repeat' split
  all_goals simp

@[simp] theorem calm_setMask (s : State) (m : Regs → BitVec 8) :
    (s.modRegs fun g => { g with haltedMask := m g }).calm = s.calm := rfl

/-! ### Record Fetcher -/

@[simp] theorem calm_startFetch (s : State) (q : QueueId) (c : CtxId) : (s.startFetch q c).calm = s.calm := rfl

@[simp] theorem calm_visitQueue (s : State) (q : QueueId) : (s.visitQueue q).calm = s.calm := by
  unfold State.visitQueue
  repeat' split
  all_goals simp

@[simp] theorem calm_fetchEvaluate (s : State) : s.fetchEvaluate.calm = s.calm := by
  unfold State.fetchEvaluate
  split
  · rfl
  · exact foldl_keeps State.calm _ (fun _ _ => calm_visitQueue _ _) _ _

@[simp] theorem calm_halt (s : State) (q : QueueId) (w : HaltReason) : (s.halt q w).calm = s.calm := by
  unfold State.halt
  rw [calm_oweNotice]
  rfl

@[simp] theorem calm_loadOutcome (s : State) (c : CtxId) (h : LoadEnd) : (s.loadOutcome c h).calm = s.calm :=
  calm_of_outside (outside_loadOutcome s c h)

@[simp] theorem calm_loadEnded (s : State) (q : QueueId) (c : CtxId) (n : Nat) (h : LoadEnd) :
    (s.loadEnded q c n h).calm = s.calm := by
  unfold State.loadEnded
  cases h <;> dsimp only <;> simp only [calm_halt, calm_loadOutcome, calm_setFetch, calm_modQueue]

/-! ### Control Unit -/

@[simp] theorem calm_controlTest (s : State) : s.controlTest.calm = s.calm := by
  unfold State.controlTest
  dsimp only
  repeat' split
  all_goals rfl

@[simp] theorem calm_controlReadFailed (s : State) : s.controlReadFailed.calm = s.calm := rfl

@[simp] theorem calm_controlDone (s : State) (e : Entry) : (s.controlDone e).calm = s.calm := by
  simp [State.controlDone]

@[simp] theorem calm_runUnknown (s : State) (r : ControlRecord) : (s.runUnknown r).calm = s.calm := by
  simp [State.runUnknown]

@[simp] theorem calm_runCfgq (s : State) (r : ControlRecord) : (s.runCfgq r).calm = s.calm := by
  unfold State.runCfgq
  repeat' split
  all_goals simp

@[simp] theorem calm_runEnq (s : State) (r : ControlRecord) : (s.runEnq r).calm = s.calm := by
  unfold State.runEnq
  repeat' split
  all_goals simp

@[simp] theorem calm_abort (s : State) (c : CtxId) : (s.abort c).calm = s.calm := calm_of_outside (outside_abort s c)

@[simp] theorem calm_aborts (s : State) (l : List CtxId) : (l.foldl State.abort s).calm = s.calm :=
  foldl_keeps State.calm _ calm_abort _ _

@[simp] theorem calm_runAbt (s : State) (r : ControlRecord) : (s.runAbt r).calm = s.calm := by
  unfold State.runAbt
  dsimp only
  repeat' split
  all_goals simp

@[simp] theorem calm_runQryq (s : State) (r : ControlRecord) : (s.runQryq r).calm = s.calm := by
  unfold State.runQryq
  dsimp only
  split <;> simp

@[simp] theorem calm_runMark (s : State) (r : ControlRecord) : (s.runMark r).calm = s.calm := by
  simp [State.runMark]

@[simp] theorem calm_hold (s : State) (r : ControlRecord) : (s.hold r).calm = s.calm := rfl

@[simp] theorem calm_joinPending (s : State) (e : PendingEntry) : (s.joinPending e).calm = s.calm := rfl

@[simp] theorem calm_disable (s : State) (q : QueueId) : (s.disable q).calm = s.calm := by
  unfold State.disable
  dsimp only
  split
  · rw [calm_modQueue, calm_oweMessage, calm_setMask, calm_modQueue]
  · rw [calm_modQueue, calm_setMask, calm_modQueue]

@[simp] theorem calm_stopQueue (s : State) (q : QueueId) : (s.stopQueue q).calm = s.calm := by
  unfold State.stopQueue
  split <;> rfl

@[simp] theorem calm_stopAndMark (s : State) (q : QueueId) (b : Bool) : (s.stopAndMark q b).calm = s.calm := by
  unfold State.stopAndMark
  dsimp only
  split <;> simp

@[simp] theorem calm_runDisq (s : State) (r : ControlRecord) : (s.runDisq r).calm = s.calm := by
  unfold State.runDisq
  dsimp only
  repeat' split
  all_goals simp

@[simp] theorem calm_freeContext (s : State) (q : QueueId) (c : CtxId) : (s.freeContext q c).calm = s.calm := rfl

/-! ### Operations that may reach the bus -/

@[simp] theorem still_modBus (s : State) (f : BusCtl → BusCtl) : (s.modBus f).still = s.still := rfl

@[simp] theorem still_mapContexts (s : State) (f : Context → Context) : (s.mapContexts f).still = s.still := rfl

@[simp] theorem still_pulseBegin (s : State) : s.pulseBegin.still = s.still := by
  rw [State.pulseBegin, still_mapContexts, still_modBus]

@[simp] theorem still_pulseRequest (s : State) : s.pulseRequest.still = s.still := by
  unfold State.pulseRequest
  dsimp only
  split <;> simp only [still_pulseBegin, still_modBus]

@[simp] theorem still_runRstt (s : State) (r : ControlRecord) : (s.runRstt r).still = s.still := by
  unfold State.runRstt
  split
  · rfl
  · rw [still_pulseRequest]; rfl

@[simp] theorem still_runInvp (s : State) (r : ControlRecord) : (s.runInvp r).still = s.still := by
  unfold State.runInvp
  repeat' split
  all_goals rw [still_of_calm (calm_controlDone _ _)]
  · exact still_of_steady (steady_invalidateAll s)
  · exact still_of_steady (steady_invalidate _ _)

@[simp] theorem still_runRlst (s : State) (r : ControlRecord) : (s.runRlst r).still = s.still := by
  unfold State.runRlst
  dsimp only
  split
  · rw [still_of_calm (calm_controlDone _ _)]; rfl
  · exact still_of_calm (calm_controlDone _ _)

@[simp] theorem still_retakeHeld (s : State) : s.retakeHeld.still = s.still := by
  unfold State.retakeHeld
  split
  · rw [still_of_calm (calm_controlTest _)]
    split
    · rw [still_of_calm (calm_runDisq _ _)]; rfl
    · rw [still_runRstt]; rfl
  · rfl

@[simp] theorem calm_completions (s : State) (l : List PendingEntry) :
    (l.foldl (fun s e => s.controlDone (pendingCompletion e)) s).calm = s.calm :=
  foldl_keeps State.calm _ (fun _ _ => calm_controlDone _ _) _ _

@[simp] theorem still_pendingDone (s : State) (d r : List PendingEntry) : (s.pendingDone d r).still = s.still := by
  unfold State.pendingDone
  split
  · rfl
  · rw [still_retakeHeld, still_of_calm (calm_completions _ _)]; rfl

@[simp] theorem still_queueTest (s : State) (q : QueueId) : (s.queueTest q).still = s.still := by
  unfold State.queueTest
  dsimp only
  split
  · rw [still_pendingDone]; exact still_of_calm (calm_disable _ _)
  · rfl

@[simp] theorem still_fetchEnded (s : State) (q : QueueId) : (s.fetchEnded q).still = s.still := by
  unfold State.fetchEnded
  rw [still_of_outside (outside_settle _), still_of_calm (calm_fetchEvaluate _), still_queueTest]

@[simp] theorem still_loadEnd (s : State) (q : QueueId) (c : CtxId) (n : Nat) (h : LoadEnd) :
    (s.loadEnd q c n h).still = s.still := by
  unfold State.loadEnd
  rw [still_fetchEnded, still_of_calm (calm_loadEnded _ _ _ _ _)]

@[simp] theorem still_headerReturned (s : State) (q : QueueId) (c : CtxId) (r : Response) :
    (s.headerReturned q c r).still = s.still := by
  unfold State.headerReturned
  dsimp only
  repeat' split
  · rw [still_fetchEnded, still_of_calm (calm_halt _ _ _), still_of_outside (outside_fenceRelease _ _)]; rfl
  · rw [still_loadEnd]; rfl
  · rw [still_loadEnd]; rfl
  · rw [still_loadEnd]; rfl
  · rfl

@[simp] theorem still_extensionReturned (s : State) (q : QueueId) (c : CtxId) (n : Nat) (r : Response) :
    (s.extensionReturned q c n r).still = s.still := by
  unfold State.extensionReturned
  dsimp only
  repeat' split
  all_goals first | rfl | (rw [still_loadEnd]; rfl)

end Sys2Proof.Machine
end

