-- ==== Sys2Proof/Laws/Port.lean ====
section
/-! SUPPORT. What each shared operation does to the posted writes, to the issue queue's bound and to the queue rows;
what taking a control record does as a whole; and what the questions about reads in flight and writes owed ask. -/

namespace Sys2Proof.Machine

/-! ### Posted writes -/

/-- A write handed joins the posted writes at their end. -/
@[simp] theorem posted_handWrite (s : State) (w : PostedWrite) : (s.handWrite w).posted = s.posted ++ [w] := by
  unfold State.handWrite State.posted
  simp only [State.modPort]
  split
  · rename_i h
    simp only [Bool.and_eq_true, List.isEmpty_iff] at h
    simp [h.1]
  · simp

/-- An issue takes the head of the issue queue and keeps every other posted write in its order. -/
@[simp] theorem posted_popWrite (s : State) : s.popWrite.posted = s.port.issueQueue.tail ++ s.port.held := by
  unfold State.popWrite State.posted
  simp only [State.modPort]
  split <;> simp_all

/-- States that agree outside contexts, chunks, locks and cache have the same posted writes. -/
theorem posted_of_outside {s t : State} (h : t.outside = s.outside) : t.posted = s.posted := by
  have a : t.port.issueQueue = s.port.issueQueue := congrArg Outside.issueQueue h
  have b : t.port.held = s.port.held := congrArg Outside.held h
  simp only [State.posted, a, b]

/-- States that agree outside contexts, chunks, locks and cache have the same queue rows. -/
theorem queue_of_outside {s t : State} (h : t.outside = s.outside) (q : QueueId) : t.queue q = s.queue q := by
  have a : t.queues = s.queues := congrArg Outside.queues h
  simp only [State.queue, a]

@[simp] theorem posted_settle (s : State) : s.settle.posted = s.posted := posted_of_outside (outside_settle s)

@[simp] theorem queue_settle (s : State) (q : QueueId) : s.settle.queue q = s.queue q :=
  queue_of_outside (outside_settle s) q

/-! ### Reads in flight and writes owed -/

/-- The model's question about reads in flight is whether there is one. -/
theorem State.readInFlight_iff (s : State) (p : ReadRef → Bool) : s.readInFlight p = true ↔ s.ReadsInFlight p := by
  simp only [State.readInFlight, State.ReadsInFlight, List.any_eq_true, List.mem_finRange, true_and]
  refine exists_congr fun i => ?_
  cases s.port.tags[i] <;> simp

/-- The model's question about posted writes is whether there is one not yet issued. -/
theorem State.writeOwed_iff (s : State) (p : PostedWrite → Bool) : s.writeOwed p = true ↔ s.OwesWrite p := by
  simp [State.writeOwed, State.OwesWrite, State.posted, or_and_right, exists_or]

/-! ### The bound of the issue queue (R161) -/

/-- Handing a write keeps the issue queue bounded. -/
theorem handWrite_bounded {s : State} (w : PostedWrite) (h : s.IssueQueueBounded) : (s.handWrite w).IssueQueueBounded := by
  obtain ⟨a, b⟩ := h
  unfold State.handWrite State.IssueQueueBounded
  simp only [State.modPort]
  split
  · rename_i g
    simp only [Bool.and_eq_true, List.isEmpty_iff, decide_eq_true_eq] at g
    simp only [List.length_append, List.length_singleton, ne_eq, g.1, not_true_eq_false, false_implies, and_true]
    omega
  · rename_i g
    simp only [Bool.and_eq_true, List.isEmpty_iff, decide_eq_true_eq, not_and, Nat.not_lt] at g
    refine ⟨a, fun _ => ?_⟩
    by_cases e : s.port.held = []
    · exact Nat.le_antisymm a (g e)
    · exact b e

/-- An issue keeps the issue queue bounded. -/
theorem popWrite_bounded {s : State} (h : s.IssueQueueBounded) : s.popWrite.IssueQueueBounded := by
  obtain ⟨a, b⟩ := h
  unfold State.popWrite State.IssueQueueBounded
  simp only [State.modPort]
  split
  · rename_i e
    simp only [List.length_tail, e, ne_eq, not_true_eq_false, false_implies, and_true]
    omega
  · rename_i w rest e
    have := b (by simp [e])
    simp only [List.length_append, List.length_tail, List.length_singleton, ne_eq]
    omega

/-- States with the same issue queue and held writes are bounded alike. -/
theorem bounded_of_outside {s t : State} (h : t.outside = s.outside) (g : s.IssueQueueBounded) : t.IssueQueueBounded := by
  have a : t.port.issueQueue = s.port.issueQueue := congrArg Outside.issueQueue h
  have b : t.port.held = s.port.held := congrArg Outside.held h
  simpa only [State.IssueQueueBounded, a, b] using g

/-! ### Queue rows -/

@[simp] theorem queue_handWrite (s : State) (w : PostedWrite) (q : QueueId) : (s.handWrite w).queue q = s.queue q := by
  rfl

@[simp] theorem queue_popWrite (s : State) (q : QueueId) : s.popWrite.queue q = s.queue q := by
  rfl

@[simp] theorem queue_modPort (s : State) (f : HostPort → HostPort) (q : QueueId) : (s.modPort f).queue q = s.queue q := rfl

@[simp] theorem queue_modControl (s : State) (f : ControlUnit → ControlUnit) (q : QueueId) :
    (s.modControl f).queue q = s.queue q := rfl

@[simp] theorem posted_modQueue (s : State) (q : QueueId) (f : QueueRow → QueueRow) : (s.modQueue q f).posted = s.posted :=
  rfl

@[simp] theorem posted_modControl (s : State) (f : ControlUnit → ControlUnit) : (s.modControl f).posted = s.posted := rfl

/-- An entry handed joins the posted writes with its queue's place and phase. -/
@[simp] theorem posted_handEntry (s : State) (q : QueueId) (c : Option CtxId) (n : Bool) (e : Entry) :
    (s.handEntry q c n e).posted = s.posted ++
      [.entry q c n ((s.queue q).cplBase + BitVec.ofNat 64 (32 * (s.queue q).cplTail)) (s.queue q).phase e] := by
  simp only [State.handEntry, posted_modQueue, posted_handWrite]

/-- An entry handed moves its own queue's completion tail, and no other row. -/
@[simp] theorem queue_handEntry_self (s : State) (q : QueueId) (c : Option CtxId) (n : Bool) (e : Entry) :
    (s.handEntry q c n e).queue q = (s.queue q).entryPlaced := by
  simp only [State.handEntry, State.queue, State.modQueue, Vector.getElem_set_self, Fin.getElem_fin]
  exact congrArg QueueRow.entryPlaced (queue_handWrite s _ q)

@[simp] theorem queue_handEntry_ne (s : State) {p q : QueueId} (h : p ≠ q) (c : Option CtxId) (n : Bool) (e : Entry) :
    (s.handEntry q c n e).queue p = s.queue p := by
  have : q.val ≠ p.val := fun e => h (Fin.ext e.symm)
  simp only [State.handEntry, State.queue, State.modQueue, Fin.getElem_fin, Vector.getElem_set_ne _ _ this]
  exact queue_handWrite s _ p

/-- The test for a control record hands nothing, and changes of queue 0's row the reserved count and the refused flag
alone. -/
theorem controlTest_row (s : State) : s.controlTest.posted = s.posted
    ∧ (∀ p, p ≠ 0 → s.controlTest.queue p = s.queue p)
    ∧ s.controlTest.queue 0 = { s.queue 0 with
        reserved := (s.controlTest.queue 0).reserved, refused := (s.controlTest.queue 0).refused } := by
  have ne : ∀ (f : QueueRow → QueueRow) (p : QueueId), p ≠ 0 → (s.modQueue 0 f).queue p = s.queue p := by
    intro f p h
    have : (0 : QueueId).val ≠ p.val := fun e => h (Fin.ext e.symm)
    simp only [State.queue, State.modQueue, Fin.getElem_fin, Vector.getElem_set_ne _ _ this]
  unfold State.controlTest
  simp only
  split
  · split
    · exact ⟨rfl, fun p h => by simpa [State.reserve] using ne _ p h, by
        simp [State.reserve, State.queue, State.modQueue, State.modControl, State.modPort]⟩
    · exact ⟨rfl, fun p h => by simpa [State.refuse] using ne _ p h, by
        simp [State.refuse, State.queue, State.modQueue, State.modControl]⟩
  · exact ⟨rfl, fun _ _ => rfl, rfl⟩

/-! ### Taking a control record (R164) -/

/-- A control slot that returns with a record of the row's command is taken: the command runs on the state in which the
slot is consumed, the Control Unit tests for the next record, and preparations go on. -/
theorem takeSlot_returns {s : State} {i : TagId} {slot : List Byte} {b : Byte} (h : s.SlotReturns i slot b)
    {isRow : Byte → Bool} (g : isRow b = true) (run : State → ControlRecord → State) :
    s.takeSlot slot isRow run = ((run (s.slotTaken i) (parseControl slot)).controlTest).settle := by
  obtain ⟨h1, h2, h3, h4⟩ := h
  simp [State.takeSlot, h1, h2, h3, h4, g]

end Sys2Proof.Machine
end

