-- ==== Sys2Proof/Laws/ControlSlot.lean ====
section
/-! SUPPORT. What the taking of a control record leaves: a command whose own effect is quiet consumes its slot, and one that
completes at once hands its entry. The statements about the control commands rest on these. -/

namespace Sys2Proof.Machine

/-- Taking a slot touches queue 0's head alone among the rows. -/
theorem queue_slotTaken_ne (s : State) (i : TagId) {q : QueueId} (h : q ≠ 0) : (s.slotTaken i).queue q = s.queue q :=
  State.queue_modQueue_ne (s.setTag i .free) (fun r => { r with subHead := (r.subHead + 1) % r.subSize }) h

/-- A command that touches neither `still` nor queue 0's head consumes its slot and nothing more of what
`ConsumesSlot` lists. -/
theorem consumes_slot {s u : State} {i : TagId} (h : u.still = (s.slotTaken i).still)
    (hh : (u.queue 0).subHead = ((s.slotTaken i).queue 0).subHead) : s.ConsumesSlot (u.controlTest).settle i := by
  have e : (u.controlTest).settle.still = (s.slotTaken i).still :=
    ((still_of_outside (outside_settle _)).trans (still_of_calm (calm_controlTest u))).trans h
  have r := congrArg Still.regs e
  refine ⟨fun j => ?_, ?_, congrArg Still.clock e, congrArg Still.pending e, congrArg Still.memory e,
    (congrArg Regs.enabled r : _), (congrArg Regs.irqEnable r : _), (congrArg Regs.indexError r : _),
    (congrArg Regs.profileTable r : _)⟩
  · rw [show (u.controlTest).settle.port.tags = (s.slotTaken i).port.tags from congrArg Still.tags e]
    by_cases g : j = i
    · subst g
      rw [if_pos rfl]
      exact State.tag_setTag_self s j .free
    · rw [if_neg g]
      exact State.tag_setTag_ne s .free g
  · rw [queue_settle, (controlTest_row u).2.2]
    simp only [hh]
    simp [State.slotTaken, State.queue, State.modControl, State.modQueue, State.setTag, State.modPort]

/-- A control completion touches nothing of `calm`, no row but queue 0's, and moves queue 0's completion tail. -/
theorem controlDone_taken (s : State) (i : TagId) (e : Entry) :
    let t := (((s.slotTaken i).controlDone e).controlTest).settle
    s.ConsumesSlot t i ∧ s.CompletesControl t e ∧ (∀ q, q ≠ 0 → t.queue q = s.queue q) ∧ t.bus = s.bus
      ∧ t.targets = s.targets := by
  have c : ((((s.slotTaken i).controlDone e).controlTest).settle).calm = (s.slotTaken i).calm :=
    ((calm_of_outside (outside_settle _)).trans (calm_controlTest _)).trans (calm_controlDone _ _)
  refine ⟨consumes_slot (still_of_calm (calm_controlDone _ _)) ?_, ⟨?_, ?_⟩, fun q h => ?_, congrArg Calm.bus c,
    congrArg Calm.targets c⟩
  · rw [State.controlDone, queue_handEntry_self]
    rfl
  · rw [posted_settle, (controlTest_row _).1, State.controlDone, posted_handEntry]
    simp [State.slotTaken, State.queue, State.modControl, State.modQueue, State.setTag, State.modPort, State.posted]
  · rw [queue_settle, (controlTest_row _).2.2, State.controlDone, queue_handEntry_self]
    simp [QueueRow.entryPlaced, State.slotTaken, State.queue, State.modControl, State.modQueue, State.setTag, State.modPort]
  · rw [queue_settle, (controlTest_row _).2.1 q h, State.controlDone, queue_handEntry_ne _ h, queue_slotTaken_ne s i h]

end Sys2Proof.Machine
end

