-- ==== Sys2Proof/Laws/Lasting.lean ====
section
/-! SUPPORT. What of a context the Staging Pool and the Lock Table leave as it is: all but its state, the place of its
preparation and its current segment. -/

namespace Sys2Proof.Machine

/-- A context but for its state, the place of its preparation and its current segment. -/
def Context.lasting (x : Context) : Context := { x with state := .free, prep := .none, segment := none }

/-- The lasting parts of all contexts. -/
def State.lasting (s : State) : Vector Context 16 := s.contexts.map Context.lasting

theorem State.lasting_get (s : State) (c : CtxId) : s.lasting[c] = (s.ctx c).lasting := by
  simp [State.lasting, State.ctx]

/-- A change of one context that leaves its lasting part leaves that of every context. -/
theorem lasting_modCtx (s : State) (c : CtxId) (f : Context → Context) (h : (f (s.ctx c)).lasting = (s.ctx c).lasting) :
    (s.modCtx c f).lasting = s.lasting := by
  apply Vector.ext
  intro i hi
  by_cases e : c.val = i
  · subst e
    simpa [State.lasting, State.modCtx, State.ctx] using h
  · simp [State.lasting, State.modCtx, Vector.getElem_set_ne _ _ e]

/-- So contexts whose lasting parts are those of another state agree with them in every field but the three. -/
theorem State.ctx_eq_of_lasting {s t : State} (h : t.lasting = s.lasting) (c : CtxId) :
    t.ctx c = { s.ctx c with state := (t.ctx c).state, prep := (t.ctx c).prep, segment := (t.ctx c).segment } := by
  have e : (t.ctx c).lasting = (s.ctx c).lasting := by rw [← State.lasting_get, ← State.lasting_get, h]
  cases hx : t.ctx c
  cases hy : s.ctx c
  rw [hx, hy] at e
  simp only [Context.lasting, Context.mk.injEq] at e
  simp [e]

@[simp] theorem lasting_setPrep (s : State) (c : CtxId) (p : Prep) : (s.setPrep c p).lasting = s.lasting :=
  lasting_modCtx s c _ rfl

@[simp] theorem lasting_modPool (s : State) (f : Pool → Pool) : (s.modPool f).lasting = s.lasting := rfl

@[simp] theorem lasting_modLocks (s : State) (f : LockTable → LockTable) : (s.modLocks f).lasting = s.lasting := rfl

@[simp] theorem lasting_setChunk (s : State) (k : ChunkId) (h : Option ChunkHold) : (s.setChunk k h).lasting = s.lasting := rfl

@[simp] theorem lasting_dropReads (s : State) (p : ReadRef → Bool) : (s.dropReads p).lasting = s.lasting := rfl

@[simp] theorem lasting_grantChunk (s : State) (c : CtxId) (k : ChunkId) (r : Role) (o : Op) (g : Segment) :
    (s.grantChunk c k r o g).1.lasting = s.lasting := by
  unfold State.grantChunk
  split <;> rfl

@[simp] theorem lasting_grantFirst (s : State) (c : CtxId) (k : ChunkId) : (s.grantFirst c k).lasting = s.lasting := by
  unfold State.grantFirst
  split
  · split
    · rfl
    · exact (lasting_modCtx _ _ _ rfl).trans (lasting_grantChunk ..)
  · rfl

@[simp] theorem lasting_claimFirst (s : State) (c : CtxId) : (s.claimFirst c).lasting = s.lasting := by
  unfold State.claimFirst
  dsimp only
  split
  · simp
  · split
    · simp
    · split <;> simp

@[simp] theorem lasting_reclaim (s : State) : s.reclaim.lasting = s.lasting := by
  unfold State.reclaim
  rw [foldl_keeps State.lasting _ lasting_claimFirst]
  simp

@[simp] theorem lasting_lockGrant (s : State) (w : LockWaiter) : (s.lockGrant w).lasting = s.lasting :=
  lasting_modCtx _ _ _ rfl

@[simp] theorem lasting_lockVisit (s : State) (kept l : List LockWaiter) : (s.lockVisit kept l).lasting = s.lasting := by
  induction l generalizing s kept with
  | nil => simp [State.lockVisit]
  | cons w rest ih =>
    unfold State.lockVisit
    split
    · rw [ih, lasting_lockGrant]
    · rw [ih]

@[simp] theorem lasting_lockEvaluate (s : State) : s.lockEvaluate.lasting = s.lasting := by
  unfold State.lockEvaluate
  dsimp only
  split
  · rfl
  · split <;> simp

@[simp] theorem lasting_offer (s : State) (k : ChunkId) (l : List Claim) : (s.offer k l).lasting = s.lasting := by
  induction l generalizing s with
  | nil => simp [State.offer]
  | cons m rest ih =>
    unfold State.offer
    split
    · simp
    · rw [ih]; simp

@[simp] theorem lasting_wake (s : State) (c : CtxId) : (s.wake c).lasting = s.lasting := by
  unfold State.wake
  split
  · simp
  · split <;> simp
  · rfl

@[simp] theorem lasting_freeChunk (s : State) (k : ChunkId) : (s.freeChunk k).lasting = s.lasting := by
  unfold State.freeChunk
  split
  · rfl
  · dsimp only
    split <;> simp

@[simp] theorem lasting_freeIfDone (s : State) (k : ChunkId) : (s.freeIfDone k).lasting = s.lasting := by
  unfold State.freeIfDone
  split
  · rfl
  · split <;> simp

@[simp] theorem lasting_endChunk (s : State) (k : ChunkId) : (s.endChunk k).lasting = s.lasting := by
  unfold State.endChunk
  split <;> simp

@[simp] theorem lasting_endRole (s : State) (c : CtxId) (r : Role) : (s.endRole c r).lasting = s.lasting := by
  unfold State.endRole
  split <;> simp

end Sys2Proof.Machine
end

