-- ==== Sys2Proof/Laws/Memory.lean ====
section
/-! SUPPORT. The staging memory: every write keeps the canonical form, a read after a write gives the byte written, and a
write leaves every other byte alone. -/

namespace Sys2Proof.Machine

/-- A canonical list from `high` on is one from any lower bound on. -/
theorem Memory.wfFrom_mono {m : Memory} {low high : Nat} (h : low ≤ high) (w : Memory.wfFrom high m = true) :
    Memory.wfFrom low m = true := by
  cases m with
  | nil => rfl
  | cons c rest =>
    obtain ⟨a, v⟩ := c
    simp only [Memory.wfFrom, Bool.and_eq_true, decide_eq_true_eq] at w ⊢
    exact ⟨⟨by omega, w.1.2⟩, w.2⟩

theorem Memory.write_wfFrom {m : Memory} {low : Nat} (a : Nat) (v : Byte) (h : low ≤ a)
    (w : Memory.wfFrom low m = true) : Memory.wfFrom low (m.write a v) = true := by
  induction m generalizing low with
  | nil =>
    unfold Memory.write
    split
    · rfl
    · next hv => simpa [Memory.wfFrom, h] using hv
  | cons c rest ih =>
    obtain ⟨b, x⟩ := c
    simp only [Memory.wfFrom, Bool.and_eq_true, decide_eq_true_eq] at w
    obtain ⟨⟨hb, hx⟩, hr⟩ := w
    unfold Memory.write
    split
    · next hab =>
      split
      · simpa [Memory.wfFrom, hb, hr] using hx
      · next hv =>
        simp only [Memory.wfFrom, Bool.and_eq_true, decide_eq_true_eq]
        exact ⟨⟨h, by simpa using hv⟩, ⟨by omega, hx⟩, hr⟩
    · split
      · next hab =>
        subst hab
        split
        · exact Memory.wfFrom_mono (by omega) hr
        · next hv => simp only [Memory.wfFrom, Bool.and_eq_true, decide_eq_true_eq]; exact ⟨⟨h, by simpa using hv⟩, hr⟩
      · simp only [Memory.wfFrom, Bool.and_eq_true, decide_eq_true_eq]
        exact ⟨⟨hb, hx⟩, ih (by omega) hr⟩

/-- A write keeps the canonical form. -/
theorem Memory.write_wf {m : Memory} (a : Nat) (v : Byte) (w : m.wf = true) : (m.write a v).wf = true :=
  Memory.write_wfFrom a v (Nat.zero_le a) w

/-- A write of several bytes keeps the canonical form. -/
theorem Memory.writeBytes_wf {m : Memory} (a : Nat) (l : List Byte) (w : m.wf = true) : (m.writeBytes a l).wf = true := by
  induction l generalizing m a with
  | nil => exact w
  | cons v rest ih => exact ih _ (Memory.write_wf a v w)

/-- Below its lower bound a canonical list holds nothing. -/
theorem Memory.read_below {m : Memory} {low a : Nat} (w : Memory.wfFrom low m = true) (h : a < low) : m.read a = 0 := by
  induction m generalizing low with
  | nil => rfl
  | cons c rest ih =>
    obtain ⟨b, x⟩ := c
    simp only [Memory.wfFrom, Bool.and_eq_true, decide_eq_true_eq] at w
    have : b ≠ a := by omega
    simp [Memory.read, this, ih w.2 (by omega)]

theorem Memory.read_write_self_from {m : Memory} {low : Nat} (a : Nat) (v : Byte) (w : Memory.wfFrom low m = true) :
    (m.write a v).read a = v := by
  induction m generalizing low with
  | nil => unfold Memory.write; split <;> simp_all [Memory.read]
  | cons c rest ih =>
    obtain ⟨b, x⟩ := c
    simp only [Memory.wfFrom, Bool.and_eq_true, decide_eq_true_eq] at w
    obtain ⟨⟨hb, hx⟩, hr⟩ := w
    unfold Memory.write
    split
    · split
      · next hv =>
        have : b ≠ a := by omega
        simp [Memory.read, this, Memory.read_below hr (show a < b + 1 by omega), hv]
      · simp [Memory.read]
    · split
      · next hab =>
        subst hab
        split
        · next hv => rw [Memory.read_below hr (by omega), hv]
        · simp [Memory.read]
      · next h1 h2 =>
        have : b ≠ a := fun e => h2 e.symm
        simp [Memory.read, this, ih hr]

/-- A byte reads back as written. -/
theorem Memory.read_write_self {m : Memory} (a : Nat) (v : Byte) (w : m.wf = true) : (m.write a v).read a = v :=
  Memory.read_write_self_from a v w

/-- A write leaves every other byte alone. -/
theorem Memory.read_write_ne (m : Memory) {a b : Nat} (v : Byte) (h : b ≠ a) : (m.write a v).read b = m.read b := by
  induction m with
  | nil => unfold Memory.write; split <;> simp [Memory.read, Ne.symm h]
  | cons c rest ih =>
    obtain ⟨d, x⟩ := c
    unfold Memory.write
    split
    · split <;> simp [Memory.read, Ne.symm h]
    · split
      · next hab =>
        subst hab
        split <;> simp [Memory.read, Ne.symm h]
      · simp [Memory.read, ih]

/-- A write of several bytes leaves every byte outside them alone. -/
theorem Memory.read_writeBytes_outside (m : Memory) (a : Nat) (l : List Byte) {b : Nat}
    (h : b < a ∨ a + l.length ≤ b) : (m.writeBytes a l).read b = m.read b := by
  induction l generalizing m a with
  | nil => rfl
  | cons v rest ih =>
    simp only [List.length_cons] at h
    rw [Memory.writeBytes, ih _ _ (by omega), Memory.read_write_ne _ _ (by omega)]

/-- The bytes written read back, each at its place. -/
theorem Memory.read_writeBytes {m : Memory} (a : Nat) (l : List Byte) (w : m.wf = true) (i : Nat) (h : i < l.length) :
    (m.writeBytes a l).read (a + i) = l[i] := by
  induction l generalizing m a i with
  | nil => simp at h
  | cons v rest ih =>
    rw [Memory.writeBytes]
    cases i with
    | zero =>
      rw [Memory.read_writeBytes_outside _ _ _ (by omega)]
      simpa using Memory.read_write_self a v w
    | succ j =>
      have := ih (a + 1) (Memory.write_wf a v w) j (by simpa using h)
      rw [show a + (j + 1) = a + 1 + j by omega]
      simpa using this

end Sys2Proof.Machine
end

