-- ==== Sys2Proof/Laws/Pool.lean ====
section
/-! SUPPORT. What the questions the Staging Pool asks answer: the Lock Table's answer to a claim, and the lowest free
chunk. -/

namespace Sys2Proof.Machine

/-- The Lock Table lets `c` claim a chunk for `t` exactly when `c` holds `t`, or `t` is free and no waiter names it (R110). -/
theorem State.mayClaim_iff (s : State) (c : CtxId) (t : TargetId) : s.mayClaim c t = true ↔
    s.locks.rows[t] = some c ∨ (s.locks.rows[t] = none ∧ ∀ w ∈ s.locks.waiters, w.set.getLsbD t.val = false) := by
  unfold State.mayClaim maskHas
  split <;> simp_all

theorem State.freeChunk?_eq_some (s : State) (k : ChunkId) (free : s.pool.chunks[k] = none)
    (lowest : ∀ j : ChunkId, j < k → s.pool.chunks[j] ≠ none) : s.freeChunk? = some k := by
  unfold State.freeChunk?
  rw [List.find?_eq_some_iff_getElem]
  refine ⟨by simp [free], k.val, by simp, by simp, fun j hj => ?_⟩
  simpa [Option.isSome_iff_ne_none] using lowest ⟨j, by omega⟩ hj

theorem State.freeChunk?_eq_none (s : State) (h : ∀ k : ChunkId, s.pool.chunks[k] ≠ none) : s.freeChunk? = none := by
  unfold State.freeChunk?
  simpa using h

/-- A chunk is one of a context's exactly when it is held by that context (R1, R116). -/
theorem State.mem_chunksOf (s : State) (c : CtxId) (k : ChunkId) :
    k ∈ s.chunksOf c ↔ ∃ h, s.pool.chunks[k] = some h ∧ h.context = c := by
  simp [State.chunksOf, Option.any_eq_true]

end Sys2Proof.Machine
end

