-- ==== Sys2Proof/Tests/Slice0.lean ====
section
/-! SUPPORT. Tests: ill-formed commands refused, worked examples of the spec, and for every statement that has hypotheses a
state and operands that meet them (witness_<statement>, one for each clause). -/

namespace Sys2Proof.Tests

open Sys2Proof.Machine

/-! ### Well-formed commands -/

theorem test_wf_enable_without_bit : Instr.wf (.enable 4) = false := by decide
theorem test_wf_enable_with_reset : Instr.wf (.enable 3) = false := by decide
theorem test_wf_reset_without_bit : Instr.wf (.reset 1) = false := by decide
theorem test_wf_irq_enable_with_enable : Instr.wf (.irqEnable 5) = false := by decide
theorem test_wf_register_unaligned : Instr.wf (.registerWrite 0x1C .full 0) = false := by decide
theorem test_wf_register_half_unaligned : Instr.wf (.registerWrite 0x1A .half 0) = false := by decide
theorem test_wf_register_half_too_wide : Instr.wf (.registerWrite 0x18 .half 0x100000000) = false := by decide
theorem test_wf_register_write_to_control : Instr.wf (.registerWrite 0x08 .full 1) = false := by decide
theorem test_wf_header_slot_short : Instr.wf (.headerSlotReturn 0 (.data [1, 2])) = false := by decide
theorem test_wf_extension_slot_short : Instr.wf (.extensionSlotReturn 0 (.data [])) = false := by decide
theorem test_wf_profile_wrong_length : Instr.wf (.profileLoadReturn 0 (.data (List.replicate 64 0))) = false := by decide
theorem test_wf_data_empty : Instr.wf (.dataReadReturn 0 (.data [])) = false := by decide
theorem test_wf_mark_other_code : Instr.wf (.mark (8 :: List.replicate 63 0)) = false := by decide
theorem test_wf_cfgq_short_slot : Instr.wf (.cfgq [1]) = false := by decide
theorem test_wf_unknown_known_code : Instr.wf (.unknownCommand (9 :: List.replicate 63 0)) = false := by decide
theorem test_wf_accepts : Instr.wf (.enable 5) = true ∧ Instr.wf (.registerWrite 0x1C .half 7) = true
    ∧ Instr.wf (.mark (9 :: List.replicate 63 0)) = true ∧ Instr.wf (.unknownCommand (10 :: List.replicate 63 0)) = true := by
  decide

/-! ### Register writes as commands (11.1) -/

/-- 11.1, CONTROL: ENABLE is bit 0, RESET bit 1, IRQ_ENABLE bit 2. -/
theorem test_control_writes : commandOfWrite 0x08 .full 5 = some (.enable 5) ∧ commandOfWrite 0x08 .half 7 = some (.reset 7)
    ∧ commandOfWrite 0x08 .half 4 = some (.irqEnable 4) ∧ commandOfWrite 0x0A .half 4 = none := by decide

/-- 11.1, INDEX_PORT: queue in bits 0 to 3, target in bit 4, index in bits 16 to 31. -/
theorem test_index_port_writes : commandOfWrite 0x30 .half 0x00040003 = some (.subTail 3 4)
    ∧ commandOfWrite 0x30 .full 0x000A0013 = some (.cplHead 3 10) ∧ commandOfWrite 0x10 .half 4 = some (.indexErrorClear 4)
    ∧ commandOfWrite 0x18 .full 0x100004 = some (.registerWrite 0x18 .full 0x100004) := by decide

/-! ### States for the tests -/

/-- The state that an answer carries. -/
def after (o : Host.Outcome State Fault Refusal) : State :=
  match o with
  | .next t => t
  | _ => {}

/-- An ACTIVE queue with rings of 16. -/
def ring : QueueRow := { state := .active, configured := true, subBase := 0x10000, cplBase := 0x20000 }

def setRow (s : State) (q : QueueId) (r : QueueRow) : State := s.modQueue q fun _ => r

def setCtx (s : State) (c : CtxId) (x : Context) : State := s.modCtx c fun _ => x

def withReset (s : State) : State := s.modRegs fun r => { r with resetting := true }

def busProfile : BusProfile := { responses := true, setup := 1, strobe := 2, recovery := 1, turnOff := 4, holdLimit := 10 }

def profile : Profile := { valid := true, bus := busProfile, retryLimit := 3, baseDelay := 20 }

/-- An inline WRITE of four bytes to T3 at 0x100. -/
def writeOp : Op := { target := 3, addr := 0x100, length := 4, inline := true, data := 0x04030201 }

/-- A READ of four bytes from T3 at 0x100 to a host buffer. -/
def readOp : Op := { kind := .read, target := 3, addr := 0x100, length := 4, data := 0x8000 }

/-- A context of queue 1 that has one op. -/
def holder (o : Op) : Context :=
  { queue := some 1, tag := 0x55, headerLoaded := true, ops := [o], opIndex := some 1
    segment := some { target := 3, addr := 0x100, len := 4 }, prof1 := some profile }

/-- Context 0 holds `o` of queue 1 in state `x`. -/
def holding (o : Op) (x : CtxState) : State :=
  setCtx (setRow {} 1 { ring with outstanding := 1, reserved := 1 }) 0 { holder o with state := x }

def accessOf (d : Direction) (p : BusPhase) (hold : Option Nat) : Access :=
  { owner := 0, half := .source, target := 3, direction := d, start := 0x100, beats := 4, snapshot := busProfile
    phase := p, holdTimer := hold }

/-- Context 0's access to T3 is in progress. -/
def inPhase (o : Op) (d : Direction) (p : BusPhase) (hold : Option Nat := none) : State :=
  (holding o .onBus).setAccess (accessOf d p hold)

/-- Context 0 has one op `o` and one segment, at place 0 of a chunk, in half `half`, with its chunk; `x` sets the rest. -/
def accessEnding (o : Op) (half : Half) (x : Context → Context) : State :=
  ((holding o .onBus).modCtx 0 fun y => x { y with segment := some { half, target := 3, addr := 0x100, len := 4 } }).setChunk 23
    (some ⟨0, .current, [3], 4⟩)

/-- A read is in flight under tag 0. -/
def reading (s : State) (r : ReadReq) : State := s.setTag 0 (.inFlight r 0)

/-- A WRITE's segment of four bytes waits for its read into chunk 23, with role `r`. -/
def awaitingData (r : Role) (again : Bool) : State :=
  let g : Segment := { target := 3, addr := 0x100, len := 4, reread := again }
  reading ((setCtx {} 0 { holder { writeOp with inline := false } with
      state := .preparing, prep := .waitData, segment := some g, staged := some g }).setChunk 23 (some ⟨0, r, [3], 4⟩))
    { ref := .data 0 23 252, addr := 0x8000, len := 4 }

/-- Queue 0 with a control record in flight under tag 0. -/
def control : State :=
  reading ((setRow {} 0 { ring with subTail := 1, reserved := 1 }).modControl fun k => { k with state := .reading })
    { ref := .control, addr := 0x10000, len := 64 }

/-- A control record: its command, queue, target and mode, and 56 bytes more. -/
def slotOf (command queue target mode : Byte) (rest : List Byte := List.replicate 56 0) : List Byte :=
  [command, 0, 0x34, 0x12, queue, target, mode, 0] ++ rest

/-- A CFGQ record's bytes 8 to 63: rings of 16 and 32 at 0x1000 and 0x2000, limit 2, weight 3, threshold 4. -/
def settings : List Byte :=
  List.replicate 8 0 ++ [0, 0x10, 0, 0, 0, 0, 0, 0] ++ [0, 0x20, 0, 0, 0, 0, 0, 0] ++ [4, 5, 2, 3, 4, 0, 9, 0] ++ List.replicate 24 0

/-- A record header: op count, slot count, then 61 bytes of zeros. -/
def header (ops slots : Byte) : List Byte := [7, 0, ops + 16 * slots] ++ List.replicate 61 0

/-! ### Worked examples and tables of the spec -/

/-- 11.1, IDENT: part code 0x2240, revision 1, 8 queues, 16 targets, 16 contexts, 24 chunks. -/
theorem test_ident : readRegister {} 0 .full = 0x0018_1010_0801_2240 := by decide

/-- 4.7: RETRY delays of 20 and 40 µs from a base of 20; R71: at most 64 times the base. -/
theorem test_retry_delays : retryDelay 20 1 = 20 ∧ retryDelay 20 2 = 40 ∧ retryDelay 255 7 = 16320 ∧ retryDelay 255 9 = 16320 := by
  decide

/-- 4.7: 0x420 lies in the window from 0x400, under 256 bytes: one segment of 16 bytes. -/
theorem test_segment_of_read : segmentLength { kind := .read, addr := 0x420, length := 16 } .source { window := 10 } {} 0 16 = 16
    ∧ windowBase { window := 10 } 0x420 = 0x400 := by decide

/-- 1.12: a WRITE of 600 bytes at 0x100 under 256-byte windows is cut into 256, 256 and 88 bytes. -/
theorem test_segments_of_write :
    let cutAt (n : Nat) := segmentLength { addr := 0x100, length := 600 } .source { window := 8 } {} n 600
    cutAt 0 = 256 ∧ cutAt 256 = 256 ∧ cutAt 512 = 88 := by decide

/-- 8.9, event 11: an entry at place 15 wraps the tail and flips the phase; the written count is then 6. -/
theorem test_ring_wrap :
    let r : QueueRow := { ring with cplTail := 15, cplHead := 10, reserved := 2 }
    r.entryPlaced.cplTail = 0 ∧ r.entryPlaced.phase = false ∧ r.entryPlaced.written = 6 := by decide

/-- 8.9, event 6: a reservation is refused at written plus reserved 15 of 16. -/
theorem test_ring_full : ({ ring with cplTail := 12, cplHead := 1, reserved := 4 } : QueueRow).hasRoom = false
    ∧ ({ ring with cplTail := 12, cplHead := 1, reserved := 3 } : QueueRow).hasRoom = true := by decide

/-- 8.9, event 9 and the paragraph after it: CPL_HEAD 10 passes, CPL_HEAD 0 frees 15 of 13 and fails. -/
theorem test_cpl_head : let r : QueueRow := { ring with cplTail := 14, cplHead := 1, reserved := 2 }
    r.headOk 10 = true ∧ r.freedBy 10 = 9 ∧ r.headOk 0 = false ∧ r.freedBy 0 = 15 := by decide

/-- 8.9: SUB_TAIL 16 on a ring of 16 latches TAIL_RANGE and queue 3, and a message goes on vector 0. -/
theorem test_sub_tail_range :
    let s := (setRow {} 3 { ring with subHead := 12, subTail := 12 }).modRegs fun r => { r with irqEnable := true }
    let t := after (exec (.subTail 3 16) s)
    t.regs.indexError = some (.tailRange, 3) ∧ t.port.issueQueue = [.message 0] ∧ (t.queue 3).subTail = 12 := by decide

/-- 5.7, event 7: four entries filled, T3 the least recently used, so E2 takes T7. -/
theorem test_fill_place :
    let s : State := { cache := {
      entries := #v[some ⟨1, {}⟩, some ⟨2, {}⟩, some ⟨3, {}⟩, some ⟨4, {}⟩], recency := [0, 1, 3, 2] } }
    s.fillPlace = 2 ∧ (s.fill 7 {}).cache.recency = [2, 0, 1, 3] := by decide

/-- 5.7, event 10: an empty entry is taken before any eviction. -/
theorem test_fill_empty :
    ({ cache := { entries := #v[none, some ⟨2, {}⟩, some ⟨7, {}⟩, some ⟨4, {}⟩], recency := [2, 1, 3] } } : State).fillPlace = 0 := by
  decide

/-- 3.7, grants 10 and 11: the eighth locality grant is spent, queue 1 has used its weight, so queue 2 is searched and its
oldest context taken; then queue 2 again, whose weight is 2. -/
theorem test_arbiter :
    let seg (t : TargetId) : Option Segment := some { target := t, len := 2 }
    let s := setCtx (setCtx (setCtx (setRow (setRow {} 1 { ring with weight := 1 }) 2 { ring with weight := 2 })
      2 { state := .busReady, queue := some 1, seq := 20, segment := seg 3 })
      7 { state := .busReady, queue := some 2, seq := 21, segment := seg 5 })
      9 { state := .busReady, queue := some 2, seq := 22, segment := seg 6 }
    (s.modBus fun b => { b with lastQueue := 1, queueRun := 1, localityRun := 8 }).arbiterPick = some (7, 2, 1, 0)
      ∧ ((s.modCtx 7 fun x => { x with state := .completing }).modBus fun b =>
          { b with lastQueue := 2, queueRun := 1 }).arbiterPick = some (9, 2, 2, 0)
      ∧ (s.modBus fun b => { b with lastQueue := 2, queueRun := 2 }).arbiterPick = some (2, 1, 1, 0) := by decide

/-- 6.11, events 5 and 6: C0's release grants C3 its whole set, and C5 waits on. -/
theorem test_lock_grants :
    let s : State := { locks := {
      rows := Vector.ofFn fun t => if t = 1 ∨ t = 2 then some 0 else none
      waiters := [⟨3, 11, 0x000C⟩, ⟨5, 12, 0x0018⟩] } }
    let t := s.lockRelease 0
    t.locks.rows[1] = none ∧ t.locks.rows[2] = some 3 ∧ t.locks.rows[3] = some 3 ∧ t.locks.rows[4] = none
      ∧ t.locks.waiters.map (·.context) = [5] := by decide

/-- R50: a beat of a 32-bit port at 0xFF carries its bytes on lanes 3, 0, 1 and 2. -/
theorem test_lanes_of_addresses :
    beatLanes { kind := .copy } { port := 2 } 0xFF = [(0, 1), (1, 2), (2, 3), (3, 0)]
      ∧ beatBytes { kind := .copy } { port := 2 } 0xFF 0x44332211 = [0x44, 0x11, 0x22, 0x33]
      ∧ laneMask ((beatLanes { kind := .copy } { port := 2 } 0xFF).map (·.1)) = 0xF
      ∧ beatLanes { kind := .poll, length := 2 } { port := 2 } 0x102 = [(2, 0), (3, 1)] := by decide

/-- R77: the remainder of a segment stopped at its first beat is not cut past the segment's end. -/
theorem test_remainder_ends_with_segment :
    let o : Op := { writeOp with inline := false, length := 600 }
    let cutFrom (left : Bool) := (Context.cut { holder o with
      segment := some { target := 3, addr := 0x100, len := 4, remainder := left } } o).len
    cutFrom true = 4 ∧ cutFrom false = 256 := by decide

/-- R101, R58: an invalidation of the target in the access's own turn-off wait closes the window at its end. -/
theorem test_invalidation_in_turn_off_wait :
    let a := { accessOf .read .turnOffWait none with snapshot := { busProfile with responses := false, window := 10 } }
    let t := after (exec (.openPhaseEnd false 0) (after (exec .turnOffWaitEnd (((holding readOp .onBus).setAccess a).invalidate 3))))
    t.bus.window.isSome = true ∧ closesAtEnd t.bus a .allDone = true ∧ (t.busReleased a .allDone).bus.window = none := by
  decide

/-- R33, R14: a failed host read is not made again when the segment is cut longer; the op fails HOST_READ_ERROR. -/
theorem test_failed_read_kept :
    let x := { holder { writeOp with inline := false, length := 8 } with
      state := .preparing, segment := some { target := 3, addr := 0x100, len := 4, hostRead := .failed } }
    let s := ((setCtx {} 0 x).setChunk 0 (some ⟨0, .current, [3], 4⟩)).prepCut 0
    s.port.moverReads = [] ∧ ((s.ctx 0).entry.map (·.status)) = some .hostReadError := by decide

/-- R123, R159: an abort of an ON_BUS context drops its staged segment's reads, and no other context's, at once. -/
theorem test_abort_drops_staged_reads :
    let r := fun c => ({ ref := .data c 5 0, addr := 0x8000, len := 4 } : ReadReq)
    let s := (holding { writeOp with inline := false } .onBus).modPort fun h => { h with moverReads := [r 0, r 1] }
    (s.abort 0).port.moverReads = [r 1] ∧ ((s.abort 0).ctx 0).state = .onBus := by decide

/-- 9.9, event 1: queues 5 and 7 fetch into C1 and C4 with sequence numbers 90 and 91; queue 2 is not reached. -/
theorem test_fetch_visits :
    let free : Vector Context 16 := Vector.ofFn fun c => if c = 1 ∨ c = 4 then {} else { state := .onBus, seq := 60 }
    let s := setRow (setRow (setRow { contexts := free, seqCounter := 90, fetcher := { pointer := 3 } }
      2 { ring with subHead := 6, subTail := 8, limit := 9 }) 5 { ring with subTail := 1, limit := 9 })
      7 { ring with subHead := 10, subTail := 10, limit := 9 }
    let t := after (exec (.subTail 7 11) s)
    t.fetcher.pointer = 7 ∧ (t.ctx 1).seq = 90 ∧ (t.ctx 4).seq = 91 ∧ t.fetchOf 2 = none
      ∧ t.port.fetcherReads.map (·.addr) = [0x10000, 0x10280] := by decide

/-- R160, R33, R11: a data read that times out fails the WRITE it was made for HOST_READ_ERROR. -/
theorem test_read_timeout_fails_write :
    let t := after (exec (.hostReadTimeout 0) (awaitingData .current false))
    (t.ctx 0).firstError = some .hostReadError ∧ (t.ctx 0).state = .completing ∧ t.port.tags[0] = .stale 10000 := by decide

/-- R126: four bytes read at host address 0xFFE go in two posted writes cut at 4 KiB, from the chunk's bytes. -/
theorem test_posted_data_cut_at_page :
    let s := ((accessEnding { readOp with data := 0xFFE } .source id).modPool fun p =>
      { p with memory := p.memory.writeBytes (256 * 23) [1, 2, 3, 4] })
    (s.handData 0 { readOp with data := 0xFFE } { target := 3, len := 4 } 4).posted
      = [.data 0 23 0xFFE [1, 2], .data 0 23 0x1000 [3, 4]] := by decide

/-- 11.2: the codes of a completion entry's bytes, with the phase marker in byte 15. -/
theorem test_entry_bytes :
    entryBytes { tag := 0x0301, queue := 5, opsCompleted := 1, bytes := 16, totalRetries := 2 } true
      = [0x01, 0x03, 5, 0, 0, 0, 1, 0, 16, 0, 0, 0, 2, 0, 0, 1] ++ List.replicate 16 0 := by decide

/-! ### Witnesses: steps, resets, invariants -/

theorem witness_StepRunsFrontOrTicks : State.reset.pending = [] := by decide

theorem witness_ResetsClearBlocks_begin : (6 : BitVec 32).getLsbD 1 = true ∧ ({} : State).regs.resetting = false
    ∧ (withReset {}).regs.resetting = true := by decide

theorem witness_ResetsClearBlocks_complete : (withReset {}).regs.resetting = true ∧ (withReset {}).inAccess = false
    ∧ (inPhase writeOp .write .beats).inAccess = true := by decide

theorem witness_StepKeepsMemoryCanonical :
    let s : State := { pool := { memory := [(3, 1), (700, 9)] }, pending := [.linkReset] }
    s.MemoryCanonical ∧ ∃ t, step s = .next t := ⟨by unfold State.MemoryCanonical; decide, _, rfl⟩

theorem witness_StepKeepsTresetInPulse :
    let s := { State.reset with pending := [.powerOnPulseEnd] }
    s.TresetInPulse ∧ ∃ t, step s = .next t := ⟨by unfold State.TresetInPulse; decide, _, rfl⟩

/-- All 64 places taken, and one write held. -/
def fullQueue : State :=
  { port := { issueQueue := List.replicate 64 (.message 1), held := [.message 2] }, pending := [.messageIssued] }

theorem witness_StepKeepsIssueQueueBounded : fullQueue.IssueQueueBounded ∧ ∃ t, step fullQueue = .next t :=
  ⟨by unfold State.IssueQueueBounded; decide, _, rfl⟩

theorem witness_StepKeepsQuietWhileResetting :
    let s := { withReset {} with pending := [.delayTimerDue 1] }
    s.QuietWhileResetting ∧ s.regs.resetting = true ∧ ∃ t, step s = .next t :=
  ⟨by unfold State.QuietWhileResetting; decide, by decide, _, rfl⟩

theorem witness_StepKeepsBasesAligned :
    let s : State := { regs := { ctlqRing := 0x100004, ctlqCpl := 0x20000C, profileBase := 0x3000 }
                       pending := [.registerWrite 0x18 .full 0xFFFFFFFFFFFFFFFF] }
    s.BasesAligned ∧ ∃ t, step s = .next t := ⟨by unfold State.BasesAligned; decide, _, rfl⟩

theorem witness_StepKeepsPendingListBounded :
    let s := { control.modControl fun k => { k with pendingList := List.replicate 4 ⟨0, .rstt⟩ } with
      pending := [.rstt (slotOf 7 0 0 0)] }
    s.PendingListBounded ∧ s.control.pendingList.length = 4 ∧ ∃ t, step s = .next t :=
  ⟨by unfold State.PendingListBounded; decide, by decide, _, rfl⟩

theorem witness_StepKeepsRingsInRange :
    let s := { setRow {} 1 { ring with subTail := 15, cplTail := 15, cplHead := 15 } with pending := [.subTail 1 0] }
    s.RingsInRange ∧ (s.queue 1).state = .active ∧ ∃ t, step s = .next t :=
  ⟨by unfold State.RingsInRange QueueRow.InRange; decide, by decide, _, rfl⟩

theorem witness_StepKeepsChunksShared :
    let s := { ((({} : State).setChunk 0 (some ⟨15, .current, [3], 4⟩)).setChunk 23 (some ⟨15, .staged, [3], 4⟩)) with
      pending := [.messageIssued] }
    s.ChunksShared ∧ s.chunksOf 15 = [0, 23] ∧ ∃ t, step s = .next t :=
  ⟨by
    refine ⟨by decide, fun k => ?_⟩
    by_cases h : k = 0 ∨ k = 23
    · right; exact ⟨15, by revert h; revert k; decide⟩
    · left; revert h; revert k; decide, by decide, _, rfl⟩

theorem witness_LockHeldUntilEntryIssued :
    let s : State := { locks := { rows := Vector.ofFn fun t => if t = 15 then some 15 else none } }
    keepsLocks .messageIssued = true ∧ (∃ t, exec .messageIssued s = .next t) ∧ s.locks.rows[15] = some 15 :=
  ⟨by decide, ⟨_, rfl⟩, by decide⟩

theorem witness_AccessBeginsOnlyWhereAllowed :
    let s := holding writeOp .busReady
    s.inAccess = false ∧ exec .busGrant s = .next (after (exec .busGrant s))
      ∧ (after (exec .busGrant s)).bus.state = .access (accessOf .write .openPhase none) := ⟨by decide, rfl, by decide⟩

/-! ### Witnesses: locks, chunks and ops -/

/-- Context 1 waits for the locks of T15 and T0, and context 2, younger, for T0's. -/
def lockWaiting : State :=
  { locks := { waiters := [⟨1, 7, 0x8001⟩, ⟨2, 9, 1⟩] } }

theorem witness_LockSetsGrantedWhole : lockWaiting.regs.resetting = false ∧ (withReset {}).regs.resetting = true
    ∧ lockWaiting.lockEvaluate.locks.waiters = [⟨2, 9, 1⟩] ∧ lockWaiting.lockEvaluate.locks.rows[15] = some 1
    ∧ (∀ v ∈ (⟨3, 8, 2⟩ : LockWaiter) :: lockWaiting.locks.waiters, (v.seq - 5).toNat < 2 ^ 31)
    ∧ lockWaiting.locks.waiters.Pairwise (fun u v => older u.seq v.seq = true) := by decide

/-- A READ to a host buffer is at step 6, with `n` chunks held. -/
def claiming (n : Nat) : State :=
  let s := setCtx {} 0 { holder readOp with state := .preparing, prep := .run .claim }
  let s := if 0 < n then s.setChunk 22 (some ⟨0, .current, [3], 4⟩) else s
  if 1 < n then s.setChunk 23 (some ⟨0, .ended, [3], 4⟩) else s

theorem witness_ChunkClaimsAnswered_first : ((claiming 0).ctx 0).op = some readOp
    ∧ ((claiming 0).ctx 0).segment = some { target := 3, addr := 0x100, len := 4 }
    ∧ 2 ≤ ((claiming 2).chunksOf 0).length ∧ ((claiming 1).chunksOf 0).length < 2
    ∧ (∀ t ∈ readOp.targets, (claiming 0).locks.rows[t] = none ∧ (claiming 0).locks.waiters = [])
    ∧ ((claiming 0).modLocks fun l => { l with rows := l.rows.set 3 (some 9) }).locks.rows[3] = some 9
    ∧ (claiming 0).pool.waiters = [] ∧ (claiming 0).pool.chunks[0] = none ∧ (∀ j : ChunkId, ¬ j < 0) := by decide

theorem witness_ChunkClaimsAnswered_offer :
    let s := (claiming 0).modLocks fun l => { l with rows := l.rows.set 4 (some 9) }
    (∀ m ∈ [(⟨1, [4]⟩ : Claim)], ∃ t ∈ m.targets, s.mayClaim m.context t = false)
      ∧ (∀ t ∈ (⟨0, [3]⟩ : Claim).targets, s.mayClaim 0 t = true) ∧ (s.ctx 0).op = some readOp
      ∧ (s.chunksOf 0).length < 2 := by decide

theorem witness_ChunkClaimsAnswered_second :
    let o := { readOp with length := 600 }
    let s := (setCtx {} 0 { holder o with state := .onBus }).setChunk 0 (some ⟨0, .current, [3], 4⟩)
    (s.ctx 0).op = some o ∧ o.usesChunk = true ∧ 0 + 0 + 4 < o.length ∧ (s.chunksOf 0).length = 1 ∧ s.pool.waiters = []
      ∧ (∀ t ∈ o.targets, s.mayClaim 0 t = true) ∧ s.pool.chunks[1] = none ∧ s.pool.chunks[0] ≠ none := by decide

/-- A WRITE from a host buffer of 600 bytes asks for its second chunk; contexts 0 and 2 are refused T3, which context 9 has
locked, and context 1 waits for T4: the Lock Table's answer is yes for one of them and no for the others. -/
theorem witness_ChunkClaimsAnswered_again :
    let o := { writeOp with inline := false, length := 600 }
    let s := (setCtx {} 0 { holder o with state := .onBus }).setChunk 0 (some ⟨0, .current, [3], 4⟩)
    let r := (claiming 0).modPool fun p => { p with refused := [⟨0, [3]⟩, ⟨1, [4]⟩, ⟨2, [3]⟩] }
    let locked := r.modLocks fun l => { l with rows := l.rows.set 3 (some 9) }
    (s.ctx 0).op = some o ∧ o.readsHost = true ∧ (s.chunksOf 0).length = 1 ∧ (∀ t ∈ o.targets, s.mayClaim 0 t = true)
      ∧ (r.pool.refused.filter fun m => m.targets.all (r.mayClaim m.context)) = r.pool.refused
      ∧ (locked.pool.refused.filter fun m => m.targets.all (locked.mayClaim m.context)) = [⟨1, [4]⟩]
      ∧ (∀ c ∈ [0, 1, (2 : CtxId)], ((r.ctx c).seq - 0).toNat < 2 ^ 31) := by decide

theorem witness_OpEndsByPolicy_aborted :
    let s := setCtx {} 0 { holder writeOp with abortPending := true }
    (s.ctx 0).opIndex = some 1 ∧ (s.ctx 0).op = some writeOp ∧ (s.ctx 0).abortPending = true := by decide

theorem witness_OpEndsByPolicy :
    let s := fun b n => setCtx {} 0 { holder writeOp with ops := List.replicate n writeOp, continues := b }
    ((s true 2).ctx 0).opIndex = some 1 ∧ ((s true 2).ctx 0).op = some writeOp ∧ ((s true 2).ctx 0).abortPending = false
      ∧ 1 < ((s true 2).ctx 0).ops.length ∧ ((s false 1).ctx 0).continues = false ∧ ((s true 1).ctx 0).ops.length ≤ 1 := by
  decide

/-- A COPY's destination half of four bytes on a 32-bit port, aligned and not, and write protected. -/
theorem witness_ProfileJudgedAndOpChecked_destination :
    let o : Op := { kind := .copy, target := 3, length := 4, target2Byte := 4, addr2 := 0x100 }
    let wide := { profile with bus := { busProfile with port := 2 } }
    o.kind = .copy ∧ wide.bus.width = 4 ∧ o.addr2.toNat % 4 = 0 ∧ { o with addr2 := 0x102 }.addr2.toNat % 4 ≠ 0
      ∧ (o.length - 0) % 4 = 0 ∧ wide.writeProtect = false ∧ { wide with writeProtect := true }.writeProtect = true
      ∧ wide.bus.port.toNat ≤ 2 := by decide

theorem witness_ProfileJudgedAndOpChecked :
    let s := setCtx {} 0 { holder writeOp with state := .preparing, lockMask := 4 }
    (s.ctx 0).op = some writeOp ∧ (s.ctx 0).half = .source ∧ (s.ctx 0).copyOf false = some profile
      ∧ (s.ctx 0).begun = false ∧ (s.ctx 0).offset = 0 ∧ s.targets[3] = none
      ∧ opChecks writeOp 4 profile {} 0 = some .lockScope ∧ judgeProfile {} = .notValid
      ∧ judgeProfile { profile with baseDelay := 0 } = .bad := by decide

/-- A preparation of `o` stands at `p`, and `f` sets the rest of its context. -/
def preparing (o : Op) (p : Prep) (f : Context → Context := id) : State :=
  (holding o .preparing).modCtx 0 fun x => f { x with prep := p }

theorem witness_PreparationTakesItsSteps_marked :
    let s := preparing writeOp (.run .start) fun x => { x with targetReset := true }
    (s.ctx 0).prep = .run .start ∧ (s.ctx 0).targetReset = true ∧ ¬ s.ReadsInFlight (·.isDataOf 0)
      ∧ (reading s { ref := .data 0 5 0, addr := 0x8000, len := 4 }).ReadsInFlight (·.isDataOf 0)
      ∧ ((preparing writeOp (.run .start)).ctx 0).targetReset = false
      ∧ (∀ p ∈ [Prep.run .lookup, .run (.judge true), .run .claim, .run .data], ((preparing writeOp p).ctx 0).prep = p) := by
  simp only [← State.readInFlight_iff]
  decide

/-- Steps 2 to 4: a COPY's source half with one copy and with both, and its destination half; a check that is due and fails,
one that passes, and none due; a target QUARANTINED and not. -/
theorem witness_PreparationTakesItsSteps_checks :
    let copyOp : Op := { kind := .copy, target := 3, length := 4, target2Byte := 4 }
    let half := fun (h : Half) (x : Context) => { x with segment := some { half := h, target := 3, len := 4 }, prof2 := some profile }
    let one := preparing copyOp (.run (.judge false))
    let both := preparing copyOp (.run (.judge true)) (half .source)
    let dest := preparing copyOp (.run (.judge true)) (half .destination)
    let begun := preparing writeOp (.run (.judge false)) fun x => { x with begun := true }
    judgeProfile profile = .good ∧ (one.ctx 0).op = some copyOp ∧ (one.ctx 0).copyOf false = some profile ∧ (one.ctx 0).prof2 = none
      ∧ (both.ctx 0).half = .source ∧ (both.ctx 0).prof1 ≠ none ∧ (both.ctx 0).copyOf true = some profile
      ∧ (dest.ctx 0).half ≠ .source ∧ (dest.ctx 0).prof2 ≠ none ∧ (dest.ctx 0).recheck = false
      ∧ (begun.ctx 0).begun = true ∧ (begun.ctx 0).checking = false
      ∧ opChecks writeOp 0 profile {} 0 = none ∧ opChecks writeOp 4 profile {} 0 = some .lockScope
      ∧ destinationChecks copyOp { profile with writeProtect := true } 0 = some .writeProtected
      ∧ (∀ t ∈ copyOp.targets, one.targets[t] = none)
      ∧ ({ one with targets := one.targets.set 4 (some (0, 1)) }).targets[copyOp.target2] ≠ none := by decide

/-- Steps 5 to 7: an op with no chunk; one that holds none; one that holds chunk 23 and is cut no longer, or longer, with its
reads in flight and not; a host read failed, arrived and to come; a copy discarded in the wait. -/
theorem witness_PreparationTakesItsSteps_data :
    let hostOp := { writeOp with inline := false }
    let s := fun h n => (preparing hostOp (.run .data) fun x => { x with
      segment := some { target := 3, addr := 0x100, len := n, hostRead := h } }).setChunk 23 (some ⟨0, .current, [3], 4⟩)
    let read : ReadReq := { ref := .data 0 23 0, addr := 0x8000, len := 2 }
    writeOp.inline = true ∧ ((preparing hostOp (.run .data)).ctx 0).op = some hostOp
      ∧ (preparing hostOp (.run .data)).chunkWith 0 .current = none ∧ (s .arrived 4).chunkWith 0 .current = some 23
      ∧ (((s .arrived 4).ctx 0).cut hostOp).len = 4 ∧ (((s .arrived 2).ctx 0).cut hostOp).len = 4
      ∧ ¬ (s .arrived 2).ReadsInFlight (·.isChunk 23) ∧ (reading (s .pending 2) read).ReadsInFlight (·.isChunk 23)
      ∧ hostOp.readsHost = true ∧ ((s .arrived 4).ctx 0).prof1 ≠ none
      ∧ ((s .failed 4).ctx 0).segment = some { target := 3, addr := 0x100, len := 4, hostRead := .failed }
      ∧ (((s .arrived 4).modCtx 0 fun x => { x with prof1 := none }).ctx 0).prof1 = none
      ∧ (((s .arrived 4).modCtx 0 fun x => { x with prof1 := none }).ctx 0).hasCopies hostOp = false
      ∧ ((s .arrived 4).ctx 0).targetReset = false ∧ (s .arrived 4).targets[3] = none := by
  simp only [← State.readInFlight_iff]
  decide

/-- An inline WRITE with its target's profile in entry 2 passes every step at once. -/
theorem witness_PreparationTakesItsSteps_ready :
    let s := (preparing writeOp (.run .start)).modCache fun k => { k with entries := k.entries.set 2 (some ⟨3, profile⟩) }
    s.regs.resetting = false ∧ (∀ d, d ≠ 0 → (s.ctx d).runnable = false) ∧ (s.ctx 0).state = .preparing
      ∧ (s.ctx 0).prep = .run .start ∧ (s.ctx 0).targetReset = false ∧ (s.ctx 0).op = some writeOp ∧ writeOp.usesChunk = false
      ∧ (s.ctx 0).half = .source ∧ s.cached writeOp.target = some 2 ∧ s.cache.entries[2] = some ⟨3, profile⟩
      ∧ judgeProfile profile = .good ∧ s.targets[writeOp.target] = none
      ∧ opChecks writeOp (s.ctx 0).lockMask profile {} (s.ctx 0).offset = none := by decide

/-! ### Witnesses: registers and the INDEX_PORT -/

/-- The registers with rings of 16 slots and 4,096 entries. -/
def configured : State := { regs := { ctlqRing := 0x100004, ctlqCpl := 0x20000C } }

theorem witness_EnableTakenOrIgnored_taken : configured.regs.resetting = false ∧ configured.regs.enabled = false
    ∧ configured.regs.ctlqRing.toNat % 16 = 4 ∧ configured.regs.ctlqCpl.toNat % 16 = 12 := by decide

theorem witness_EnableTakenOrIgnored_ignored : (withReset {}).regs.resetting = true ∧ ({} : State).regs.resetting = false
    ∧ ({} : State).regs.ctlqRing.toNat % 16 < 4
    ∧ 12 < ({ ctlqRing := 0x10000D } : Regs).ctlqRing.toNat % 16 := by decide

theorem witness_IrqEnableSendsOwed : (setRow {} 8 { messageDue := true }).regs.resetting = false := by decide

theorem witness_BaseRegisterReadsBack : configured.BasesAligned ∧ registerWriteOk 0x2C .half 0xFFFFFFFF = true
    ∧ registerWriteOk 0x18 .full 0xFFFFFFFFFFFFFFFF = true ∧ registerWriteOk 0xF8 .full 1 = true :=
  ⟨by unfold State.BasesAligned; decide, by decide, by decide, by decide⟩

theorem witness_SubTailReplacesTail : (0 : BitVec 4).toNat = (0 : QueueId).val
    ∧ (8 : BitVec 4).toNat = (8 : QueueId).val ∧ (setRow {} 8 ring).regs.resetting = false
    ∧ ((setRow {} 8 ring).queue 8).state ≠ .disabled ∧ (15 : BitVec 16).toNat < ((setRow {} 8 ring).queue 8).subSize := by
  decide

theorem witness_SubTailReplacesTail_control :
    let s := setRow {} 0 ring
    let failed := s.modControl fun k => { k with state := .readFailed }
    s.control.state ≠ .readFailed ∧ failed.control.state = .readFailed ∧ (failed.queue 0).state ≠ .disabled
      ∧ (1 : BitVec 16).toNat < (failed.queue 0).subSize := by decide

/-- Queue 8 offers one record, and every context is FREE; with 15 reservations there is no room. -/
theorem witness_SubTailReplacesTail_visit :
    let s := setRow {} 8 { ring with subTail := 1 }
    let full := setRow {} 8 { ring with subTail := 1, reserved := 15 }
    s.regs.resetting = false ∧ s.fetcher.pointer ≤ 8 ∧ (s.queue 8).state = .active ∧ (s.queue 8).subTail ≠ (s.queue 8).subHead
      ∧ (s.queue 8).outstanding < (s.queue 8).limit ∧ s.fetchOf 8 = none ∧ (∀ c, (s.ctx c).state = .free)
      ∧ (s.queue 8).written + (s.queue 8).reserved < (s.queue 8).cplSize - 1
      ∧ ¬ ((full.queue 8).written + (full.queue 8).reserved < (full.queue 8).cplSize - 1)
      ∧ (setRow {} 8 ring).queue 8 = ring ∧ ring.subTail = ring.subHead := by decide

theorem witness_CplHeadFreesEntries :
    let s := setRow {} 3 { ring with cplTail := 14, cplHead := 1, refused := true }
    (3 : BitVec 4).toNat = (3 : QueueId).val ∧ s.regs.resetting = false ∧ (s.queue 3).state ≠ .disabled
      ∧ (s.queue 3).InRange ∧ (14 < (s.queue 3).cplSize ∧ (14 + 16 - 1) % 16 ≤ (s.queue 3).written)
      ∧ ¬ (16 < (s.queue 3).cplSize ∧ (16 + 16 - 1) % 16 ≤ (s.queue 3).written) :=
  ⟨by decide, by decide, by decide, by unfold QueueRow.InRange; decide, by decide, by decide⟩

/-- The Control Unit's test: with a record offered and room, without room, and with nothing offered; and RESERVING. -/
theorem witness_CplHeadFreesEntries_control :
    let s := setRow {} 0 { ring with subTail := 1 }
    let full := setRow {} 0 { ring with subTail := 1, reserved := 15 }
    s.control.state = .idle ∧ (s.queue 0).state = .active ∧ (s.queue 0).subTail ≠ (s.queue 0).subHead
      ∧ s.regs.resetting = false ∧ (s.queue 0).written + (s.queue 0).reserved < (s.queue 0).cplSize - 1
      ∧ ¬ ((full.queue 0).written + (full.queue 0).reserved < (full.queue 0).cplSize - 1)
      ∧ ((setRow {} 0 ring).queue 0).subTail = ((setRow {} 0 ring).queue 0).subHead
      ∧ full.controlTest.control.state = .reserving := by decide

theorem witness_IndexErrorsCheckedAndLatched_checks : (withReset {}).regs.resetting = true ∧ ({} : State).regs.resetting = false
    ∧ 8 < (9 : BitVec 4).toNat ∧ (8 : BitVec 4).toNat = (8 : QueueId).val ∧ (({} : State).queue 8).state = .disabled
    ∧ ((setRow {} 8 ring).queue 8).state ≠ .disabled ∧ ((setRow {} 8 ring).queue 8).subSize ≤ (16 : BitVec 16).toNat := by
  decide

theorem witness_IndexErrorsCheckedAndLatched_latch :
    let s := ({} : State).modRegs fun r => { r with indexError := some (.badQueue, 15) }
    s.regs.resetting = false ∧ s.regs.indexError ≠ none ∧ ({} : State).regs.resetting = false
      ∧ ({} : State).regs.indexError = none := by decide

/-! ### Witnesses: completion rings and posted writes -/

theorem witness_ReservationLaw_step :
    let s := { setRow {} 1 { ring with cplTail := 13, reserved := 2 } with pending := [.messageIssued] }
    s.RingsInRange ∧ s.ReservationsFit ∧ (s.queue 1).written + (s.queue 1).reserved = 16 - 1 ∧ ∃ t, step s = .next t :=
  ⟨by unfold State.RingsInRange QueueRow.InRange; decide, by unfold State.ReservationsFit; decide, by decide, _, rfl⟩

theorem witness_ReservationLaw : ({ ring with cplTail := 13, reserved := 1 } : QueueRow).hasRoom = true
    ∧ ({ ring with cplTail := 15, cplHead := 2, reserved := 2 } : QueueRow).InRange
    ∧ ({ ring with cplTail := 15, cplHead := 2, reserved := 2 } : QueueRow).written + 2 ≤ 16 - 1
    ∧ ({ ring with cplTail := 15, cplHead := 2, reserved := 2 } : QueueRow).headOk 15 = true :=
  ⟨by decide, by unfold QueueRow.InRange; decide, by decide, by decide⟩

theorem witness_EntryTakesPlaceAtTail :
    let s := setRow {} 1 { ring with cplTail := 15, cplHead := 2, reserved := 1 }
    (s.queue 1).InRange ∧ (s.queue 1).state ≠ .disabled := ⟨by unfold QueueRow.InRange; decide, by decide⟩

/-- Context 0 of queue 1 is COMPLETING with its entry assembled. -/
def completing : State := (holding writeOp .completing).modCtx 0 fun x => { x with entry := some { queue := 1 } }

/-- Context 0 may hand its entry and holds chunk 23, with nobody waiting. -/
theorem witness_CompletionHandedWhenQuiet_chunks :
    let s := completing.setChunk 23 (some ⟨0, .ended, [3], 4⟩)
    (s.ctx 0).state = .completing ∧ (s.ctx 0).handed = false ∧ s.regs.resetting = false ∧ ¬ s.ReadsInFlight (·.isDataOf 0)
      ∧ ¬ s.OwesWrite (·.dataOf 0) ∧ s.chunksOf 0 = [23] ∧ s.pool.waiters = [] ∧ s.pool.refused = [] ∧ s.locks.waiters = [] := by
  simp only [← State.readInFlight_iff, ← State.writeOwed_iff]
  decide

theorem witness_CompletionHandedWhenQuiet : (completing.ctx 0).queue = some 1 ∧ (completing.ctx 0).entry = some { queue := 1 }
    ∧ completing.mayHand 0 = true
    ∧ (reading completing { ref := .data 0 5 0, addr := 0, len := 4 }).mayHand 0 = false := by decide

theorem witness_IssuedWriteLeavesQueue_entry :
    (completing.handEntry 1 (some 0) false {}).port.issueQueue = .entry 1 (some 0) false 0x20000 true {} :: []
      ∧ (completing.handEntry 0 none false {}).port.issueQueue = .entry 0 none false 0 true {} :: []
      ∧ completing.locks.waiters = [] := by decide

theorem witness_IssuedWriteLeavesQueue_data : fullQueue.port.issueQueue = .message 1 :: List.replicate 63 (.message 1)
    ∧ (({} : State).handWrite (.data 0 5 0x8000 [1])).port.issueQueue = .data 0 5 0x8000 [1] :: [] := by decide

/-- Chunk 5's last data write is issued: with its segment ended it may be freed, and with a read in flight not. -/
theorem witness_IssuedWriteLeavesQueue_chunk :
    let s := ({} : State).setChunk 5 (some ⟨0, .ended, [3], 4⟩)
    let t := reading s { ref := .data 0 5 0, addr := 0x8000, len := 4 }
    s.pool.chunks[5] = some ⟨0, .ended, [3], 4⟩ ∧ ¬ s.ReadsInFlight (·.isChunk 5) ∧ ¬ s.OwesWrite (·.ofChunk 5)
      ∧ t.ReadsInFlight (·.isChunk 5) ∧ (((s.setChunk 5 none).wake 0).lockEvaluate).pool.chunks[5] = none
      ∧ s.pool.waiters = [] ∧ s.locks.waiters = [] := by
  simp only [← State.readInFlight_iff, ← State.writeOwed_iff]
  decide

/-- Context 0's staged chunk 5, with nothing of it in flight or owed, with a read in flight and with a write owed; context 0
waits for a chunk of its own to be freed. -/
theorem witness_IssuedWriteLeavesQueue_ended :
    let s := accessEnding readOp .source fun x => { x with prep := .waitTwo, staged := some { base := 4 } }
    let t := s.setChunk 5 (some ⟨0, .staged, [3], 4⟩)
    t.pool.chunks[5] = some ⟨0, .staged, [3], 4⟩ ∧ t.chunkWith 0 .staged = some 5 ∧ s.chunkWith 0 .staged = none
      ∧ ¬ (t.ReadsInFlight (·.isChunk 5) ∨ t.OwesWrite (·.ofChunk 5))
      ∧ (reading t { ref := .data 0 5 0, addr := 0x8000, len := 4 }).ReadsInFlight (·.isChunk 5)
      ∧ (t.handWrite (.data 0 5 0x8000 [1])).OwesWrite (·.ofChunk 5) ∧ t.pool.waiters = [] ∧ t.locks.waiters = []
      ∧ (t.ctx 0).prep = .waitTwo ∧ ((({} : State).setPrep 0 .waitFreed).ctx 0).prep = .waitFreed
      ∧ (({} : State).setPrep 0 .waitFreed).chunksOf 0 = [] ∧ t.chunksOf 0 ≠ [] ∧ ((t.setPrep 0 .none).ctx 0).prep ≠ .waitTwo := by
  simp only [← State.readInFlight_iff, ← State.writeOwed_iff]
  decide

/-- Context 3 of queue 1 waits at its fence, with an older context of its queue in use, with none, and with one of another
queue; `mask` is its lock mask. -/
def fenced (q : QueueId) (older : CtxState) (mask : BitVec 16) : State :=
  setCtx (setCtx {} 1 { state := older, queue := some q, seq := 4 }) 3
    { state := .fenceWait, queue := some 1, seq := 5, lockMask := mask }

theorem witness_IssuedWriteLeavesQueue_fence :
    let blocked (s : State) (c : CtxId) := ∃ d, (s.ctx d).state ≠ .free ∧ (s.ctx d).queue = some 1
      ∧ older (s.ctx d).seq (s.ctx c).seq = true
    ((fenced 1 .onBus 0).ctx 3).state = .fenceWait ∧ ((fenced 1 .onBus 0).ctx 3).queue = some 1
      ∧ blocked (fenced 1 .onBus 0) 3 ∧ ¬ blocked (fenced 2 .onBus 2) 3 ∧ ¬ blocked (fenced 1 .free 0) 3
      ∧ (∀ d, d ≠ 3 → ((fenced 2 .onBus 2).ctx d).state ≠ .fenceWait) ∧ ((fenced 2 .onBus 2).ctx 3).lockMask ≠ 0
      ∧ ((fenced 1 .free 0).ctx 3).lockMask = 0 := by decide

/-- Context 3 goes on while context 1 of another queue is in LOCK_WAIT and in the list of lock waiters. -/
theorem witness_IssuedWriteLeavesQueue_fenceWaiters :
    let s := (fenced 2 .lockWait 2).modLocks fun l => { l with waiters := [⟨1, 4, 1⟩] }
    s.locks.waiters ≠ [] ∧ (∀ w ∈ s.locks.waiters, (s.ctx w.context).state = .lockWait) ∧ (s.ctx 3).state = .fenceWait
      ∧ (s.ctx 3).queue = some 1 ∧ ∀ d, (s.ctx d).queue = some 1 → d = 3 := by decide

/-- R6: the fence opens when no older context of the queue is in use. -/
theorem test_fence_opens : (((fenced 1 .free 0).fenceRelease 1).ctx 3).state = .preparing
    ∧ (((fenced 1 .onBus 0).fenceRelease 1).ctx 3).state = .fenceWait
    ∧ (((fenced 2 .onBus 2).fenceRelease 1).locks.rows[1]) = some 3 := by decide

theorem witness_ModerationOwesMessages : (withReset {}).regs.resetting = true ∧ ({} : State).regs.resetting = false
    ∧ ({} : State).regs.irqEnable = false
    ∧ ((({} : State).modRegs fun r => { r with irqEnable := true }).regs.irqEnable = true) := by decide

theorem witness_ModerationOwesMessages_timer : ((setRow {} 3 { ring with delayTimer := some 50, count := 1 }).queue 3).delayTimer = some 50 := by
  decide

/-! ### Witnesses: host reads -/

theorem witness_TagGrantedInRotation :
    let r : ReadReq := { ref := .control, addr := 0x10000, len := 64 }
    let s := ({} : State).modPort fun p => { p with controlReads := [r], tags := Vector.ofFn fun i => if i = 7 then .free else .stale 0 }
    s.regs.resetting = false ∧ s.freeTag? = some 7 ∧ s.nextRead = some (.controlFetch, r) := by decide

/-- Contexts 0 and 1 have reads listed; 1 is the older, and its current segment's chunk is 6. -/
theorem witness_TagGrantedInRotation_mover :
    let r (c : CtxId) (k : ChunkId) : ReadReq := { ref := .data c k 0, addr := 0x8000, len := 4 }
    let s := (((setCtx (setCtx {} 0 { holder writeOp with seq := 9 }) 1 { holder writeOp with seq := 8 }).setChunk 6
      (some ⟨1, .current, [3], 4⟩)).setChunk 5 (some ⟨1, .staged, [3], 4⟩)).modPort fun p =>
        { p with moverReads := [r 0 2, r 1 5, r 1 6] }
    s.nextReadOf .dataMover = some (r 1 6) ∧ s.chunkWith 1 .current = some 6 ∧ (r 1 6).ref.isChunk 6 = true
      ∧ (s.modPort fun p => { p with moverReads := [r 0 2, r 1 5] }).nextReadOf .dataMover = some (r 1 5)
      ∧ (∀ x ∈ [r 0 2, r 1 5], x.ref.isChunk 6 = false) := by decide

/-- The second extension slot of queue 1's fetch is the next read. -/
theorem witness_TagGrantedInRotation_extension :
    let r : ReadReq := { ref := .slot 1 2 2, addr := 0x10080, len := 64 }
    let s := (({} : State).setFetch 1 (some { context := 2, firstSlot := 0, expected := 3, loaded := 1, inFlight := 1 })).modPort
      fun p => { p with fetcherReads := [r] }
    s.freeTag? = some 0 ∧ s.nextRead = some (.fetcher, r) ∧ r.ref = .slot 1 2 (1 + 1) ∧ (s.fetchOf 1).isSome = true := by decide

/-- Queue 1 has a fetch in flight for context 2 with `f` loaded slots of `n` expected, and slot `k` comes under tag 0. -/
def fetching (k n f : Nat) : State :=
  reading ((setCtx (setRow {} 1 { ring with subHead := 14, subTail := 2, outstanding := 1, reserved := 1 }) 2
      { state := .loading, queue := some 1 }).setFetch 1
        (some { context := 2, firstSlot := 14, expected := n, loaded := f, inFlight := 1 }))
    { ref := .slot 1 2 k, addr := 0x10380, len := 64 }

def slotRead (k : Nat) : ReadReq := { ref := .slot 1 2 k, addr := 0x10380, len := 64 }

theorem witness_HeaderErrorHaltsQueue_error : (1 : QueueId) ≠ 0 ∧ (fetching 0 1 0).Awaits 0 (slotRead 0)
    ∧ ((fetching 0 1 0).queue 1).state = .active := ⟨by decide, by unfold State.Awaits; decide, by decide⟩

theorem witness_HeaderErrorHaltsQueue_short : (fetching 0 1 0).Awaits 0 (slotRead 0) ∧ (header 15 4).length = 64
    ∧ let s := setRow (fetching 0 1 0) 1 { ring with subHead := 14, subTail := 1, outstanding := 1, reserved := 1 }
      s.Awaits 0 (slotRead 0) ∧ s.fetchOf 1 = some { context := 2, firstSlot := 14, inFlight := 1 }
        ∧ (s.queue 1).state = .active ∧ (s.queue 1).subHead < (s.queue 1).subSize ∧ s.locks.waiters = []
        ∧ (parseHeader (header 15 4)).slotCount = 4 ∧ (1 + 16 - 14) % 16 < 4 :=
  ⟨by unfold State.Awaits; decide, by decide, by unfold State.Awaits; decide, by decide, by decide, by decide, by decide,
    by decide, by decide⟩

/-- Queue 1 is STOPPING, with one context outstanding and with two, when its header slot returns; its tail offers `tail - 14`
slots. -/
def stoppingFetch (n tail : Nat) : State :=
  setRow (fetching 0 1 0) 1 { ring with state := .stopping, subHead := 14, subTail := tail, outstanding := n, reserved := 1 }

theorem witness_HeaderErrorHaltsQueue_stopping :
    (∀ n ∈ [1, 2], (stoppingFetch n 15).Awaits 0 (slotRead 0) ∧ ((stoppingFetch n 15).queue 1).state = .stopping
        ∧ ((stoppingFetch n 15).queue 1).outstanding = n ∧ ((stoppingFetch n 15).queue 1).subHead < 16)
      ∧ (stoppingFetch 1 15).fetchOf 1 = some { context := 2, firstSlot := 14, inFlight := 1 }
      ∧ (stoppingFetch 1 15).locks.waiters = [] ∧ (stoppingFetch 1 15).control.state ≠ .held
      ∧ (parseHeader (header 15 4)).slotCount = 4 ∧ (15 + 16 - 14) % 16 < 4 ∧ (stoppingFetch 1 15).regs.resetting = false := by
  unfold State.Awaits
  decide

/-- R135, R134, R183: a header error on a STOPPING queue with nothing else outstanding leaves it DISABLED, with the reason kept
and its mask bit clear. -/
theorem test_header_error_stopping :
    let t := after (execHeaderSlotReturn 0 .hostError (stoppingFetch 1 15))
    (t.queue 1).state = .disabled ∧ (t.queue 1).haltReason = .fetchError ∧ t.regs.haltedMask = 0 := by decide

theorem witness_HeaderSlotLoadsRecord_long : (fetching 0 1 0).Awaits 0 (slotRead 0) ∧ (header 15 4).length = 64
    ∧ (fetching 0 1 0).fetchOf 1 = some { context := 2, firstSlot := 14, inFlight := 1 }
    ∧ (parseHeader (header 15 4)).slotCount = 4 ∧ (2 + 16 - 14) % 16 = 4 :=
  ⟨by unfold State.Awaits; decide, by decide, by decide, by decide, by decide⟩

theorem witness_HeaderSlotLoadsRecord_short : (fetching 0 1 0).Awaits 0 (slotRead 0) ∧ (header 1 1).length = 64
    ∧ (parseHeader (header 1 1)).slotCount = 1 := ⟨by unfold State.Awaits; decide, by decide, by decide⟩

theorem witness_HeaderSlotLoadsRecord_outside : (header 1 0).length = 64 ∧ (parseHeader (header 1 0)).slotCount = 0
    ∧ (header 1 7).length = 64 ∧ 4 < (parseHeader (header 1 7)).slotCount := by decide

theorem witness_ExtensionSlotsLoadRecord : (fetching 1 4 1).Awaits 0 (slotRead 1) ∧ (fetching 3 4 3).Awaits 0 (slotRead 3)
    ∧ (fetching 1 4 1).fetchOf 1 = some { context := 2, firstSlot := 14, expected := 4, loaded := 1, inFlight := 1 }
    ∧ (fetching 3 4 3).fetchOf 1 = some { context := 2, firstSlot := 14, expected := 4, loaded := 3, inFlight := 1 } :=
  ⟨by unfold State.Awaits; decide, by unfold State.Awaits; decide, by decide, by decide⟩

/-- An extension read of the ACTIVE queue 1 returns an error, alone in flight and with another. -/
theorem witness_ExtensionSlotsLoadRecord_error :
    let two := (fetching 1 4 1).setFetch 1 (some { context := 2, firstSlot := 14, expected := 4, loaded := 1, inFlight := 2 })
    (fetching 1 4 1).Awaits 0 (slotRead 1) ∧ responseComplete .hostError 64 = true
      ∧ (fetching 1 4 1).fetchOf 1 = some { context := 2, firstSlot := 14, expected := 4, loaded := 1, inFlight := 1 }
      ∧ ((fetching 1 4 1).queue 1).state = .active ∧ ((fetching 1 4 1).queue 1).subHead < ((fetching 1 4 1).queue 1).subSize
      ∧ (fetching 1 4 1).locks.waiters = [] ∧ two.Awaits 0 (slotRead 1)
      ∧ two.fetchOf 1 = some { context := 2, firstSlot := 14, expected := 4, loaded := 1, inFlight := 2 } :=
  ⟨by unfold State.Awaits; decide, by decide, by decide, by decide, by decide, by decide, by unfold State.Awaits; decide,
    by decide⟩

/-- The same on a STOPPING queue; and op 4 of a record lies in slot 1. -/
theorem witness_ExtensionSlotsLoadRecord_stopping :
    let s := (fetching 1 4 1).modQueue 1 fun r => { r with state := .stopping }
    let slots := [(0, header 4 2), (1, header 9 9)]
    s.Awaits 0 (slotRead 1) ∧ (s.queue 1).state = .stopping ∧ 0 < (s.queue 1).outstanding
      ∧ s.fetchOf 1 = some { context := 2, firstSlot := 14, expected := 4, loaded := 1, inFlight := 1 }
      ∧ (s.queue 1).subHead < (s.queue 1).subSize ∧ s.locks.waiters = []
      ∧ slots.find? (fun p => p.1 == 0) = some (0, header 4 2) ∧ slots.find? (fun p => p.1 == 4 / 4) = some (4 / 4, header 9 9) := by
  unfold State.Awaits
  decide

/-- A one-slot record with one WRITE has loaded in context 2, with `n` as its slot count, and context 1 of its queue is
older. -/
def loadedRecord (n : Nat) (fence : Bool) (mask : BitVec 16) : State :=
  setCtx (setCtx {} 1 { holder writeOp with state := .onBus, seq := 4 }) 2
    { state := .loading, queue := some 1, seq := 5, fence, lockMask := mask, slots := [(0, header 1 1)], opCount := 1
      slotCount := n }

theorem witness_ExtensionSlotsLoadRecord_loaded :
    let x := (loadedRecord 1 true 2).ctx 2
    let passes (n : Nat) := recordOk n x.opCount x.returnIndex (recordOps x.slots x.opCount x.returnIndex)
    passes 1 = true ∧ passes 2 = false ∧ x.abortPending = false ∧ x.fence = true ∧ x.lockMask ≠ 0
      ∧ ((loadedRecord 1 true 2).ctx 1).state ≠ .free ∧ ((loadedRecord 1 true 2).ctx 1).queue = x.queue
      ∧ older ((loadedRecord 1 true 2).ctx 1).seq x.seq = true
      ∧ ((loadedRecord 1 false 0).ctx 2).fence = false ∧ ((loadedRecord 1 false 0).ctx 2).lockMask = 0 := by decide

theorem witness_ProfileLoadFillsUnlessCancelled :
    let load := fun c => reading (({} : State).modRow 15 fun _ => { loading := true, cancelled := c })
      { ref := .profile 15, addr := 0x1E0, len := 32 }
    (load false).Awaits 0 { ref := .profile 15, addr := 0x1E0, len := 32 } ∧ ((load false).cache.rows[15]).cancelled = false
      ∧ (load true).Awaits 0 { ref := .profile 15, addr := 0x1E0, len := 32 } ∧ ((load true).cache.rows[15]).cancelled = true
      ∧ responseComplete .hostError 32 = true :=
  ⟨by unfold State.Awaits; decide, by decide, by unfold State.Awaits; decide, by decide, by decide⟩

/-- A load of T15, cancelled or not, with context 0 as its live waiter and context 1 with an abort pending, or `l`. -/
def loadFor (c : Bool) (l : List CtxId) : State :=
  let waiting := { holder { writeOp with target := 15 } with state := .preparing, prep := .waitProfile false, prof1 := none }
  reading ((setCtx (setCtx {} 0 waiting) 1 { waiting with abortPending := true }).modRow 15 fun _ =>
    { loading := true, cancelled := c, waiters := l }) { ref := .profile 15, addr := 0x1E0, len := 32 }

theorem witness_ProfileLoadFillsUnlessCancelled_waiters :
    let s := fun c => loadFor c [0, 1]
    (∀ c ∈ [true, false], (s c).Awaits 0 { ref := .profile 15, addr := 0x1E0, len := 32 } ∧ ((s c).cache.rows[15]).cancelled = c
        ∧ 0 ∈ ((s c).cache.rows[15]).waiters ∧ ((s c).ctx 0).abortPending = false ∧ ((s c).ctx 1).abortPending = true)
      ∧ ((s false).cache.rows[15]).waiters.Nodup ∧ ((loadFor false [0]).cache.rows[15]).waiters = [0]
      ∧ ((s false).ctx 0).prep = .waitProfile false
      ∧ (∀ c, ¬ (c ∈ ((loadFor true [1]).cache.rows[15]).waiters ∧ ((loadFor true [1]).ctx c).abortPending = false))
      ∧ responseComplete (.data (List.replicate 32 0)) 32 = true :=
  ⟨by unfold State.Awaits; decide, by decide, by decide, by decide, by decide, by decide⟩

/-- T2 is cached in entry 3, T15 is being loaded, and T0 is neither. -/
theorem witness_ProfileLoadFillsUnlessCancelled_lookup :
    let s := (loadFor false []).modCache fun k => { k with entries := k.entries.set 3 (some ⟨2, profile⟩) }
    s.cached 2 = some 3 ∧ s.cache.entries[3] = some ⟨2, profile⟩ ∧ s.cached 15 = none ∧ (s.cache.rows[15]).loading = true
      ∧ s.cached 0 = none ∧ (s.cache.rows[0]).loading = false := by decide

theorem witness_DataReadPlacesBytes :
    (awaitingData .current false).MemoryCanonical
      ∧ (awaitingData .current false).Awaits 0 { ref := .data 0 23 252, addr := 0x8000, len := 4 }
      ∧ (awaitingData .current false).pool.chunks[23] = some ⟨0, .current, [3], 4⟩
      ∧ ((awaitingData .current false).ctx 0).segment = some { target := 3, addr := 0x100, len := 4 }
      ∧ ((awaitingData .current false).ctx 0).ignoresReads = false :=
  ⟨by unfold State.MemoryCanonical; decide, by unfold State.Awaits; decide, by decide, by decide, by decide⟩

/-- The requester: no other read of chunk 23 is in flight or listed; another is; the segment's data were overtaken; the chunk's
segment has ended; its context uses none of its reads; a context waits for its reads, with an abort pending and without. -/
theorem witness_DataReadPlacesBytes_requester :
    let last := (awaitingData .current false).setTag 0 .free
    let other : ReadReq := { ref := .data 0 23 0, addr := 0x9000, len := 4 }
    let waits := (awaitingData .current false).setPrep 0 .waitReads
    ¬ last.ReadsInFlight (·.isChunk 23) ∧ last.port.moverReads = [] ∧ (last.ctx 0).ignoresReads = false
      ∧ (last.ctx 0).state = .preparing ∧ (last.ctx 0).prep = .waitData ∧ (last.ctx 0).op.isSome = true
      ∧ (last.setTag 1 (.inFlight other 0)).ReadsInFlight (·.isChunk 23)
      ∧ ((awaitingData .current true).ctx 0).segment = some { target := 3, addr := 0x100, len := 4, reread := true }
      ∧ (awaitingData .ended false).pool.chunks[23] = some ⟨0, .ended, [3], 4⟩ ∧ (waits.ctx 0).ignoresReads = true
      ∧ waits.ReadsInFlight (·.isDataOf 0) ∧ ¬ (waits.setTag 0 .free).ReadsInFlight (·.isDataOf 0)
      ∧ (waits.ctx 0).abortPending = false ∧ ((waits.modCtx 0 fun x => { x with abortPending := true }).ctx 0).abortPending = true
      ∧ responseComplete (.data [1, 2, 3, 4]) 4 = true ∧ responseComplete .hostError 4 = true := by
  simp only [← State.readInFlight_iff]
  decide

theorem witness_DataReadPlacesBytes_staged :
    (awaitingData .staged false).Awaits 0 { ref := .data 0 23 252, addr := 0x8000, len := 4 }
      ∧ (awaitingData .staged false).pool.chunks[23] = some ⟨0, .staged, [3], 4⟩
      ∧ ((awaitingData .staged false).ctx 0).staged = some { target := 3, addr := 0x100, len := 4 }
      ∧ ((awaitingData .staged true).ctx 0).staged = some { target := 3, addr := 0x100, len := 4, reread := true }
      ∧ ((awaitingData .current true).ctx 0).segment = some { target := 3, addr := 0x100, len := 4, reread := true } :=
  ⟨by unfold State.Awaits; decide, by decide, by decide, by decide, by decide⟩

theorem witness_TagsReturnTimeOutAndExpire_times : (fetching 0 1 0).port.tags[0] = .inFlight (slotRead 0) 0
    ∧ (({} : State).setTag 7 (.stale 5)).port.tags[7] = .stale 5 ∧ ({} : State).port.tags[0] = .free := by decide

/-- A read of each kind is in flight under tag 0, and RESETTING is clear. -/
theorem witness_TagsReturnTimeOutAndExpire_handed :
    let profileRead : ReadReq := { ref := .profile 3, addr := 0x60, len := 32 }
    let dataRead : ReadReq := { ref := .data 0 23 252, addr := 0x8000, len := 4 }
    (fetching 0 1 0).Awaits 0 (slotRead 0) ∧ (fetching 1 4 1).Awaits 0 (slotRead 1) ∧ (reading {} profileRead).Awaits 0 profileRead
      ∧ (reading {} dataRead).Awaits 0 dataRead ∧ control.Awaits 0 { ref := .control, addr := 0x10000, len := 64 }
      ∧ control.controlTag = some 0 ∧ (fetching 0 1 0).regs.resetting = false := by
  unfold State.Awaits
  decide

theorem witness_TagsReturnTimeOutAndExpire_resetting : (withReset (fetching 0 1 0)).inFlight 0 = some (slotRead 0)
    ∧ (withReset (fetching 0 1 0)).regs.resetting = true ∧ responseComplete .hostError 64 = true
    ∧ (slotRead 0).ref.isHeader = true ∧ (slotRead 1).ref.isExtension = true ∧ (ReadRef.profile 3).isProfile = true
    ∧ (ReadRef.data 0 0 0).isData = true := by decide

/-! ### Witnesses: the target bus -/

/-- Context 0 is ready, and its access would hit the open window. -/
def hitting : State :=
  (holding writeOp .busReady).modBus fun b => { b with window := some ⟨3, 0x100, 0, 8⟩ }

def hittingProfile : State := hitting.modCtx 0 fun x => { x with
  prof1 := some { profile with bus := { busProfile with window := 8 } } }

theorem witness_LocalityStepFirst : hittingProfile.bus.localityRun < 8
    ∧ (List.finRange 16).filter (fun c => hittingProfile.eligible c && hittingProfile.wouldHit c) = [0]
    ∧ (hittingProfile.modBus fun b => { b with localityRun := 8 }).bus.localityRun = 8
    ∧ ({} : State).bus.window = none := by decide

theorem witness_OldestIsOldest : (∀ d ∈ [0, (1 : CtxId)], ((hitting.ctx d).seq - 0).toNat < 2 ^ 31)
    ∧ hitting.oldest [0, 1] = some 0 := by decide

theorem witness_RoundRobinTurnsOverQueues :
    let s := (setRow (holding writeOp .busReady) 1 { ring with weight := 8 }).modBus fun b => { b with lastQueue := 1, queueRun := 7 }
    s.bus.lastQueue ≠ 0 ∧ s.bus.queueRun < s.weightOf s.bus.lastQueue ∧ s.oldestOf s.bus.lastQueue = some 0
      ∧ ({} : State).bus.lastQueue = 0 ∧ s.eligible 0 = true ∧ (s.ctx 0).queue = some 1 ∧ s.bus.window = none := by decide

theorem witness_GrantBeginsAccess :
    let waiting := (holding writeOp .busReady).modBus fun b => { b with turnOff := some (2, 4) }
    (holding writeOp .busReady).mayGrant = true ∧ (holding writeOp .busReady).arbiterPick = some (0, 1, 1, 0)
      ∧ ((holding writeOp .busReady).ctx 0).op = some writeOp
      ∧ waiting.mayGrant = true ∧ waiting.arbiterPick = some (0, 1, 1, 0) ∧ (2 : TargetId) ≠ 3 ∧ waiting.clock < 4
      ∧ hittingProfile.mayGrant = true ∧ hittingProfile.arbiterPick = some (0, 0, 0, 1) := by decide

/-- A READ of 600 bytes is ready with its chunk; its second claim is granted chunk 0. -/
theorem witness_GrantBeginsAccess_second :
    let s := (holding { readOp with length := 600 } .busReady).setChunk 23 (some ⟨0, .current, [3], 4⟩)
    s.mayGrant = true ∧ s.arbiterPick = some (0, 1, 1, 0) ∧ (s.ctx 0).op = some { readOp with length := 600 }
      ∧ (s.claimSecond 0).pool.chunks[0] = some ⟨0, .staged, [3], 256⟩ := by decide

/-- The window as R47 has it: a windowed MEMORY profile, one with no window, a STREAM one; a COPY's halves; a length of whole
beats and one of a part. -/
theorem witness_GrantBeginsAccess_window :
    let windowed := { busProfile with window := 8 }
    let stream := { busProfile with cls := 1 }
    (windowed.cls = 0 ∧ 8 ≤ windowed.window.toNat ∧ windowed.window.toNat ≤ 20) ∧ ¬ 8 ≤ busProfile.window.toNat ∧ stream.cls = 1
      ∧ windowBase windowed 0x1FF = 0x100 ∧ windowBase busProfile 0x1FF = 0x1FF ∧ windowBase { stream with window := 8 } 0x1FF = 0x1FF
      ∧ hittingProfile.windowHit 3 windowed 0x1FF = true ∧ hittingProfile.windowHit 4 windowed 0x1FF = false
      ∧ hittingProfile.windowHit 3 { windowed with closeAfter := true } 0x1FF = false
      ∧ readOp.kind ≠ .poll ∧ 4 % { busProfile with port := 2 }.width = 0 ∧ 3 % { busProfile with port := 2 }.width ≠ 0 := by
  decide

/-- A turn-off wait ends at a window hit, and at none. -/
theorem witness_GrantBeginsAccess_waitEndsAtHit :
    let a := { accessOf .write .turnOffWait none with snapshot := { busProfile with window := 8 } }
    let s := (hittingProfile.setAccess a).modBus fun b => { b with turnOff := some (2, 4) }
    s.bus.state = .access a ∧ a.phase = .turnOffWait ∧ s.windowHit a.target a.snapshot a.start = true
      ∧ (s.modBus fun b => { b with window := none }).windowHit a.target a.snapshot a.start = false
      ∧ (s.ctx 0).op = some writeOp ∧ (s.ctx 0).segment = some { target := 3, addr := 0x100, len := 4 } := by decide

theorem witness_GrantBeginsAccess_waitEnds :
    let s := (inPhase writeOp .write .turnOffWait).modBus fun b => { b with turnOff := some (2, 4) }
    s.bus.state = .access (accessOf .write .turnOffWait none) ∧ s.bus.turnOff = some (2, 4) := by decide

theorem witness_OpenPhaseEndsByResponse :
    (inPhase writeOp .write .openPhase).bus.state = .access (accessOf .write .openPhase none)
      ∧ (accessOf .write .openPhase none).snapshot.responses = true ∧ (3 : BitVec 2) ≠ 0
      ∧ (inPhase writeOp .write .openPhase).regs.resetting = false := by decide

/-- The owner within its retry limit and its releases, and with both used up; with an abort pending. -/
theorem witness_OpenPhaseEndsByResponse_owner :
    let s := inPhase writeOp .write .openPhase
    let spent := s.modCtx 0 fun x => { x with retries := 3, releases := 3 }
    (s.ctx 0).op = some writeOp ∧ (s.ctx 0).segment = some { target := 3, addr := 0x100, len := 4 }
      ∧ (s.ctx 0).retries < ((s.ctx 0).profileOf .source).retryLimit ∧ (s.ctx 0).releases < 3
      ∧ (s.ctx 0).abortPending = false ∧ ((spent.ctx 0).profileOf .source).retryLimit ≤ (spent.ctx 0).retries
      ∧ 3 ≤ (spent.ctx 0).releases
      ∧ ((s.modCtx 0 fun x => { x with abortPending := true }).ctx 0).abortPending = true := by decide

theorem witness_HoldStretchesOrTimesOut_drop :
    (inPhase writeOp .write .beats).bus.state = .access (accessOf .write .beats none)
      ∧ (inPhase writeOp .write .openPhase).bus.state = .access (accessOf .write .openPhase none)
      ∧ (inPhase writeOp .write .beats (some 0)).bus.state = .access (accessOf .write .beats (some 0))
      ∧ (inPhase writeOp .write .openPhase (some 0)).bus.state = .access (accessOf .write .openPhase (some 0)) := by decide

theorem witness_BeatsMoveData_write : (inPhase writeOp .write .beats).bus.state = .access (accessOf .write .beats none)
    ∧ (accessOf .write .beats none).snapshot.isStream = false ∧ 0 + 1 < (accessOf .write .beats none).beats
    ∧ ((inPhase writeOp .write .beats).ctx 0).op = some writeOp
    ∧ ((inPhase writeOp .write .beats).ctx 0).segment = some { target := 3, addr := 0x100, len := 4 } := by decide

/-- The last beat of a write access, and a beat of an access to a STREAM target. -/
theorem witness_BeatsMoveData_end :
    let last := { accessOf .write .beats none with beatsDone := 3 }
    let stream := { accessOf .read .beats none with snapshot := { busProfile with cls := 1, window := 20 } }
    ((holding writeOp .onBus).setAccess last).bus.state = .access last ∧ last.beats ≤ last.beatsDone + 1
      ∧ last.snapshot.window = 0 ∧ ((holding readOp .onBus).setAccess stream).bus.state = .access stream
      ∧ stream.snapshot.isStream = true ∧ stream.snapshot.window.toNat ≤ 20
      ∧ (holding readOp .onBus).regs.resetting = false ∧ (holding readOp .onBus).bus.pulsePending = false := by decide

/-- A read beat whose bytes go to a chunk, the first of four and the last; of a READ with RETURN; and of a POLL. -/
theorem witness_BeatsMoveData_read :
    let chunk := (inPhase readOp .read .beats).setChunk 23 (some ⟨0, .current, [3], 4⟩)
    let last := { accessOf .read .beats none with beatsDone := 3 }
    let returns := inPhase { readOp with ret := true } .read .beats
    let poll := inPhase { readOp with kind := .poll, length := 1 } .read .beats
    chunk.MemoryCanonical ∧ chunk.bus.state = .access (accessOf .read .beats none) ∧ (chunk.ctx 0).op = some readOp
      ∧ (chunk.ctx 0).segment = some { target := 3, addr := 0x100, len := 4 } ∧ chunk.chunkWith 0 .current = some 23
      ∧ (chunk.setAccess last).bus.state = .access last ∧ last.beats ≤ last.beatsDone + 1
      ∧ (returns.ctx 0).op = some { readOp with ret := true } ∧ (poll.ctx 0).op = some { readOp with kind := .poll, length := 1 }
      ∧ (accessOf .read .beats none).snapshot.isStream = false :=
  ⟨by unfold State.MemoryCanonical; decide, by decide, by decide, by decide, by decide, by decide, by decide, by decide,
    by decide, by decide⟩

/-- The hold limit of context 0's access is reached; context 1 is BUS_READY for its target, and context 2 for another. -/
theorem witness_HoldStretchesOrTimesOut_timeout :
    let s := inPhase writeOp .write .beats (some 0)
    let ready := fun t => { holder writeOp with state := .busReady, segment := some { target := t, len := 4 } }
    let t := setCtx (setCtx s 1 (ready 3)) 2 (ready 4)
    s.bus.state = .access (accessOf .write .beats (some 0)) ∧ (s.ctx 0).queue = some 1 ∧ s.regs.resetting = false
      ∧ (s.ctx 0).op = some writeOp ∧ (s.ctx 0).segment = some { target := 3, addr := 0x100, len := 4 }
      ∧ (t.ctx 1).state = .busReady ∧ (t.ctx 1).segment.map (·.target) = some 3 ∧ (t.ctx 2).segment.map (·.target) = some 4 := by
  decide

/-- Every kind of op has its clause: a READ to a host buffer, a DRAIN, a COPY in each half, a POLL. -/
theorem witness_OwnerTakesAccessEnd_kinds :
    let copyOp : Op := { kind := .copy, target := 3, addr := 0x100, length := 4, target2Byte := 4 }
    ((accessEnding readOp .source id).ctx 0).op = some readOp
      ∧ ((accessEnding readOp .source id).ctx 0).segment = some { target := 3, addr := 0x100, len := 4 }
      ∧ readOp.kind ≠ .poll ∧ readOp.kind ≠ .drain ∧ ((accessEnding readOp .source id).ctx 0).abortPending = false
      ∧ ((accessEnding readOp .source id).ctx 0).retries < (((accessEnding readOp .source id).ctx 0).profileOf .source).retryLimit
      ∧ (((accessEnding readOp .source fun x => { x with retries := 3 }).ctx 0).profileOf .source).retryLimit ≤ 3
      ∧ ((accessEnding { readOp with kind := .drain } .source id).ctx 0).op = some { readOp with kind := .drain }
      ∧ ((accessEnding copyOp .source id).ctx 0).op = some copyOp
      ∧ ((accessEnding copyOp .source id).ctx 0).segment = some { half := .source, target := 3, addr := 0x100, len := 4 }
      ∧ ((accessEnding copyOp .destination id).ctx 0).segment = some { half := .destination, target := 3, addr := 0x100, len := 4 }
      ∧ ((accessEnding copyOp .source fun x => { x with abortPending := true }).ctx 0).abortPending = true
      ∧ (withReset (accessEnding readOp .source id)).regs.resetting = true
      ∧ (accessEnding readOp .source id).regs.resetting = false := by decide

/-- R38, R39: a POLL that matches, one inverted that does not, at its last attempt and before it, with and without an
interval. -/
theorem witness_OwnerTakesAccessEnd_poll :
    let poll : Op := { kind := .poll, target := 3, addr := 0x100, length := 1, mask := 0x80, matchValue := 0x80, attemptLimit := 2 }
    let x := (accessEnding poll .source fun x => { x with gathered := 0x81, polls := 1 }).ctx 0
    let y := (accessEnding { poll with invert := true, interval := 9 } .source fun x => { x with gathered := 0x80 }).ctx 0
    x.op = some poll ∧ x.gathered.setWidth 32 &&& poll.mask = poll.matchValue ∧ poll.attemptLimit ≤ x.polls + 1
      ∧ y.op = some { poll with invert := true, interval := 9 } ∧ ¬ (y.gathered.setWidth 32 &&& poll.mask ≠ poll.matchValue)
      ∧ y.polls + 1 < poll.attemptLimit ∧ y.abortPending = false ∧ poll.interval = 0 := by decide

/-- An op of 600 bytes at byte 4, with a staged segment that begins there, one that does not, and none; and one at its end. -/
theorem witness_OwnerTakesAccessEnd_segmentEnds :
    let long := { readOp with length := 600 }
    let s := fun b => (accessEnding long .source fun x => { x with offset := 4, staged := b.map fun n => { target := 3, base := n, len := 4 }
      }).setChunk 5 (some ⟨0, .staged, [3], 4⟩)
    let ended := accessEnding readOp .source fun x => { x with offset := 4 }
    ((s none).ctx 0).op = some long ∧ ((s none).ctx 0).offset < long.length ∧ ((s none).ctx 0).abortPending = false
      ∧ ((s (some 4)).ctx 0).staged = some { target := 3, base := 4, len := 4 } ∧ (s (some 4)).chunkWith 0 .staged = some 5
      ∧ (s (some 4)).chunkWith 0 .current = some 23
      ∧ (s (some 4)).pool.chunks[5] = some ⟨0, .staged, [3], 4⟩ ∧ ((s (some 8)).ctx 0).staged = some { target := 3, base := 8, len := 4 }
      ∧ ((s none).ctx 0).staged = none ∧ (ended.ctx 0).op = some readOp ∧ readOp.length ≤ (ended.ctx 0).offset := by decide

theorem witness_RetryDelayDoublesToCap :
    let s := inPhase writeOp .write .openPhase
    (s.ctx 0).staged = none ∧ s.chunkWith 0 .staged = none ∧ (s.ctx 0).abortPending = false
      ∧ (s.ctx 0).retries + 1 ≤ ((s.ctx 0).profileOf .source).retryLimit := by decide

theorem witness_DueTimerPreparesAgain :
    let wait := fun k => (holding writeOp .timerWait).modCtx 0 fun x => { x with timer := some (k, 20) }
    ((wait .retry).ctx 0).state = .timerWait ∧ ((wait .retry).ctx 0).timer = some (.retry, 20)
      ∧ ((wait .poll).ctx 0).timer = some (.poll, 20) ∧ ((wait .flow).ctx 0).timer = some (.flow, 20) := by decide

theorem witness_SegmentCutAtWindowEnds : writeOp.kind ≠ .poll ∧ 3 < writeOp.length ∧ (busProfile.windowed = false)
    ∧ ({ busProfile with window := 20 }).windowed = true ∧ ({ writeOp with kind := .copy } : Op).isCopy = true := by decide

/-- A context whose op has begun, BUS_READY and not; and one whose op has not. -/
theorem witness_PulseBegins :
    let s := fun b x => (holding writeOp x).modCtx 0 fun y => { y with begun := b }
    ((s true .busReady).ctx 0).begun = true ∧ ((s true .busReady).ctx 0).opIndex ≠ none ∧ ((s true .busReady).ctx 0).state = .busReady
      ∧ ((s true .timerWait).ctx 0).state ≠ .busReady ∧ ((s false .busReady).ctx 0).begun = false := by decide

/-- A pulse ends with another pending, while RESETTING is set and not, after an RSTT and after power-on; an RSTT is HELD while
four entries are in the list. -/
theorem witness_PulsesEnd_pending :
    let s (powerOn : Bool) := (({} : State).pulseBegin).modBus fun b => { b with state := .resetPulse 100 powerOn, pulsePending := true }
    let full := ((s false).modControl fun k => { k with
      state := .held, hand := some { command := 7 }, pendingList := List.replicate 4 ⟨1, .rstt⟩ }).modBus fun b => { b with attachedNow := 1 }
    (∀ b ∈ [true, false], (s b).bus.state = .resetPulse 100 b ∧ (s b).bus.pulsePending = true ∧ (s b).regs.resetting = false
        ∧ (s b).control.state ≠ .held ∧ (withReset (s b)).regs.resetting = true)
      ∧ full.bus.state = .resetPulse 100 false ∧ full.control.state = .held ∧ full.control.hand = some { command := 7 }
      ∧ 0 < full.bus.attachedNow ∧ (∃ e ∈ full.control.pendingList, e.kind = .rstt) ∧ full.control.pendingList.length ≤ 4 := by
  decide

/-- R65: with a pulse pending, the next begins at once. -/
theorem test_next_pulse_begins :
    let s := (({} : State).pulseBegin).modBus fun b => { b with pulsePending := true, attachedNext := 2 }
    let t := ((s.untilUs 100).modBus BusCtl.pulseOver).nextPulse
    t.bus.state = .resetPulse 200 false ∧ t.bus.pins.treset = true ∧ t.bus.attachedNow = 2 := by decide

theorem witness_PulsesEnd : State.reset.bus.state = .resetPulse 100 true ∧ State.reset.bus.pulsePending = false
    ∧ (({} : State).pulseBegin).bus.state = .resetPulse 100 false ∧ (({} : State).pulseBegin).bus.pulsePending = false
    ∧ (({} : State).pulseBegin).control.state ≠ .held ∧ ((loadFor false []).cache.rows[15]).loading = true := by decide

/-! ### Witnesses: control commands -/

theorem witness_FailedOrUnknownRecord : control.controlTag = some 0 ∧ control.regs.resetting = false
    ∧ control.SlotReturns 0 (slotOf 10 0 0 0) 10 ∧ control.SlotReturns 0 (slotOf 0 0 0 0) 0 ∧ 9 < (10 : Byte).toNat
    ∧ control.Settled :=
  ⟨by decide, by decide, by unfold State.SlotReturns; decide, by unfold State.SlotReturns; decide, by decide,
    by unfold State.Settled; decide⟩

theorem witness_MarkEchoesValue : control.SlotReturns 0 (slotOf 9 0 0 0) 0x09 ∧ control.Settled :=
  ⟨by unfold State.SlotReturns; decide, by unfold State.Settled; decide⟩

theorem witness_QueryReportsRow : control.SlotReturns 0 (slotOf 8 8 0 0) 0x08 ∧ control.SlotReturns 0 (slotOf 8 9 0 0) 0x08
    ∧ (byteAt (slotOf 8 8 0 0) 4).toNat = (8 : QueueId).val ∧ 8 < (byteAt (slotOf 8 9 0 0) 4).toNat :=
  ⟨by unfold State.SlotReturns; decide, by unfold State.SlotReturns; decide, by decide, by decide⟩

theorem witness_QueueConfiguredAndEnabled_configure : control.SlotReturns 0 (slotOf 1 8 0 0 settings) 0x01
    ∧ (byteAt (slotOf 1 8 0 0 settings) 4).toNat = (8 : QueueId).val ∧ (control.queue 8).state = .disabled
    ∧ (∀ i ∈ [32, 33], 4 ≤ (byteAt (slotOf 1 8 0 0 settings) i).toNat ∧ (byteAt (slotOf 1 8 0 0 settings) i).toNat ≤ 12)
    ∧ (∀ i ∈ [16, 24], (word64 (slotOf 1 8 0 0 settings) i).toNat % 4096 = 0)
    ∧ ((byteAt (slotOf 1 8 0 0 settings) 34).toNat = 2 ∧ (byteAt (slotOf 1 8 0 0 settings) 35).toNat = 3
      ∧ (byteAt (slotOf 1 8 0 0 settings) 36).toNat = 4) ∧ (byteAt (slotOf 1 8 0 0) 32).toNat < 4
    ∧ (byteAt (slotOf 1 0 0 0) 4).toNat = 0 ∧ ((setRow control 8 ring).queue 8).state ≠ .disabled :=
  ⟨by unfold State.SlotReturns; decide, by decide, by decide, by decide, by decide, by decide, by decide, by decide, by decide⟩

theorem witness_QueueConfiguredAndEnabled_enable : control.SlotReturns 0 (slotOf 2 8 0 0) 0x02
    ∧ ((setRow control 8 { configured := true }).queue 8).state = .disabled
    ∧ ((setRow control 8 { configured := true }).queue 8).configured = true ∧ (control.queue 8).configured = false :=
  ⟨by unfold State.SlotReturns; decide, by decide, by decide, by decide⟩

theorem witness_DisableQueue :
    let s := setRow control 8 { ring with outstanding := 1 }
    control.SlotReturns 0 (slotOf 3 8 0 1) 0x03 ∧ (byteAt (slotOf 3 8 0 1) 6).toNat ≤ 1 ∧ (s.queue 8).state ≠ .disabled
      ∧ 0 < (s.queue 8).outstanding ∧ s.control.pendingList.length < 4
      ∧ 4 ≤ (s.modControl fun k => { k with pendingList := List.replicate 4 ⟨0, .rstt⟩ }).control.pendingList.length
      ∧ (control.queue 8).state = .disabled ∧ 1 < (byteAt (slotOf 3 8 0 2) 6).toNat
      ∧ ¬ 0 < ((setRow control 8 ring).queue 8).outstanding ∧ (setRow control 8 ring).fetchOf 8 = none :=
  ⟨by unfold State.SlotReturns; decide, by decide, by decide, by decide, by decide, by decide, by decide, by decide, by decide, by decide⟩

/-- DISQ ABORT of queue 1, with a context of it waiting on a timer: outstanding, and not counted so. -/
theorem witness_DisableQueue_abort :
    let s (n : Nat) := setCtx (setRow control 1 { ring with outstanding := n }) 0 { holder writeOp with state := .timerWait }
    (∀ n ∈ [0, 1], (s n).SlotReturns 0 (slotOf 3 1 0 1) 0x03 ∧ ((s n).queue 1).state = .active ∧ ((s n).queue 1).outstanding = n
        ∧ (s n).fetchOf 1 = none ∧ (s n).control.pendingList.length < 4)
      ∧ (byteAt (slotOf 3 1 0 1) 4).toNat = (1 : QueueId).val ∧ byteAt (slotOf 3 1 0 1) 6 = 1
      ∧ ((s 1).ctx 0).queue = some 1 ∧ ((s 1).ctx 0).state ≠ .free := by
  unfold State.SlotReturns
  decide

/-- R134, R183: a HALTED queue that DISQ stops clears its mask bit, and signals the entries not yet signalled on its way to
DISABLED. -/
theorem test_disq_clears_mask :
    let s := (setRow {} 8 { ring with state := .halted, count := 1 }).modRegs fun r =>
      { r with haltedMask := 0x81, irqEnable := true }
    let t := (s.stopAndMark 8 false).disable 8
    (s.stopQueue 8).regs.haltedMask = 1 ∧ (t.queue 8).state = .disabled ∧ t.port.issueQueue = [.message 8] := by decide

theorem witness_AbortMarksMatching :
    let s := setCtx control 0 { holder writeOp with state := .timerWait, tag := 0 }
    s.SlotReturns 0 (slotOf 4 1 0 0) 0x04
      ∧ (s.ctx 0).queue = some 1 ∧ (s.ctx 0).headerLoaded = true ∧ (s.ctx 0).tag = half16 (slotOf 4 1 0 0) 8
      ∧ (s.ctx 0).state ≠ .free ∧ (s.ctx 0).state ≠ .completing ∧ (∀ c, (control.ctx c).state = .free)
      ∧ 8 < (byteAt (slotOf 4 9 0 0) 4).toNat :=
  ⟨by unfold State.SlotReturns; decide, by decide, by decide, by decide, by decide, by decide, by decide, by decide⟩

/-- Every state of a context is that of one of these; a PREPARING one waits for its load, for its reads or for nothing. -/
theorem witness_AbortMarksMatching_states :
    let preparing (p : Prep) := (holding writeOp .preparing).setPrep 0 p
    let read : ReadReq := { ref := .data 0 5 0, addr := 0x8000, len := 4 }
    (∀ x ∈ [CtxState.free, .loading, .fenceWait, .lockWait, .busReady, .onBus, .timerWait, .completing],
        ((holding writeOp x).ctx 0).state = x)
      ∧ ((preparing (.waitProfile false)).ctx 0).prep = .waitProfile false
      ∧ (preparing .waitReads).readInFlight (·.isDataOf 0) = false ∧ ((preparing .waitReads).ctx 0).state = .preparing
      ∧ ((preparing .waitReads).ctx 0).prep = .waitReads
      ∧ (reading (preparing .waitData) read).readInFlight (·.isDataOf 0) = true := by decide

theorem witness_AbortMarksMatching_load :
    let s := reading ((setCtx {} 0 { holder writeOp with state := .preparing, prep := .waitProfile false, abortPending := true
      }).modRow 3 fun _ => { loading := true, waiters := [0] }) { ref := .profile 3, addr := 0x60, len := 32 }
    s.Awaits 0 { ref := .profile 3, addr := 0x60, len := 32 } ∧ 0 ∈ (s.cache.rows[3]).waiters ∧ (s.ctx 0).abortPending = true
      ∧ s.locks.waiters = [] ∧ s.readInFlight (·.isDataOf 0) = false ∧ responseComplete .hostError 32 = true :=
  ⟨by unfold State.Awaits; decide, by decide, by decide, by decide, by decide, by decide⟩

theorem witness_InvalidateEmptiesEntry :
    let s := (control.modRow 15 fun _ => { loading := true }).modCache fun k => { k with entries := k.entries.set 3 (some ⟨15, {}⟩) }
    s.SlotReturns 0 (slotOf 5 0 15 0) 0x05 ∧ s.cached 15 = some 3 ∧ (s.cache.rows[15]).loading = true
      ∧ 15 < (byteAt (slotOf 5 0 16 0) 5).toNat ∧ byteAt (slotOf 5 0 255 0) 5 = 0xFF :=
  ⟨by unfold State.SlotReturns; decide, by decide, by decide, by decide, by decide⟩

/-- Contexts that name T3: BUS_READY, PREPARING with a copy, waiting on a timer; one that names another target; one with no
op; a COPY's destination half, ready for T4, whose first target is T3. -/
theorem witness_InvalidateEmptiesEntry_contexts :
    let s := holding writeOp
    let copyOp : Op := { kind := .copy, target := 3, length := 4, target2Byte := 4 }
    let half := (holding copyOp .busReady).modCtx 0 fun x => { x with segment := some { half := .destination, target := 4, len := 4 } }
    ((s .busReady).ctx 0).op = some writeOp ∧ ((s .busReady).ctx 0).half = .source ∧ 3 ∈ writeOp.targets ∧ 4 ∉ writeOp.targets
      ∧ ((s .preparing).ctx 0).prof1 = some profile ∧ ((s .timerWait).ctx 0).state ≠ .preparing
      ∧ ((s .timerWait).ctx 0).state ≠ .busReady ∧ (({} : State).ctx 0).op = none
      ∧ (half.ctx 0).half = .destination ∧ 3 ∈ copyOp.targets ∧ (3 : TargetId) ≠ copyOp.target2 := by decide

/-- The window of T3 is open while an access to T15 waits for the turn-off, while one to T3 does, and with none. -/
theorem witness_InvalidateEmptiesEntry_window :
    let window : Window := ⟨3, 0x100, 0, 8⟩
    let opened := control.modBus fun b => { b with window := some window }
    let access (t : TargetId) := opened.setAccess { accessOf .read .turnOffWait none with target := t }
    (∀ s ∈ [opened, access 3, access 15], s.controlTag = some 0 ∧ s.bus.window = some window)
      ∧ (slotOf 5 0 3 0).length = 64 ∧ byteAt (slotOf 5 0 3 0) 0 = 0x05 ∧ (byteAt (slotOf 5 0 3 0) 5).toNat = (3 : TargetId).val
      ∧ opened.bus.state = .idle ∧ (access 3).bus.state = .access { accessOf .read .turnOffWait none with target := 3 }
      ∧ (access 15).bus.state = .access { accessOf .read .turnOffWait none with target := 15 } := by decide

theorem witness_ReleaseTargetReportsRow : control.SlotReturns 0 (slotOf 6 0 15 0) 0x06
    ∧ (byteAt (slotOf 6 0 15 0) 5).toNat = (15 : TargetId).val ∧ 15 < (byteAt (slotOf 6 0 16 0) 5).toNat :=
  ⟨by unfold State.SlotReturns; decide, by decide, by decide⟩

theorem witness_ResetTargetsRequestsPulse : control.SlotReturns 0 (slotOf 7 0 0 0) 0x07 ∧ control.control.pendingList.length < 4
    ∧ control.bus.state = .idle ∧ (control.pulseBegin).bus.state ≠ .idle :=
  ⟨by unfold State.SlotReturns; decide, by decide, by decide, by decide⟩

theorem witness_ResetTargetsRequestsPulse_held :
    let s := control.modControl fun k => { k with pendingList := List.replicate 4 ⟨0, .rstt⟩ }
    s.SlotReturns 0 (slotOf 7 0 0 0) 0x07 ∧ 4 ≤ s.control.pendingList.length :=
  ⟨by unfold State.SlotReturns; decide, by decide⟩

theorem witness_PendingCommandsComplete_queue :
    let s := (setRow {} 8 { ring with state := .stopping }).modControl fun k =>
      { k with pendingList := [⟨1, .rstt⟩, ⟨2, .disq 8 true 3⟩] }
    (s.queue 8).state = .stopping ∧ (s.queue 8).outstanding = 0 ∧ s.fetchOf 8 = none ∧ s.regs.resetting = false
      ∧ s.control.state ≠ .held ∧ ⟨2, .disq 8 true 3⟩ ∈ s.control.pendingList := by decide

/-- The Control Unit is HELD with an RSTT when the STOPPING queue 8 comes to hold nothing, and when a pulse ends. -/
theorem witness_PendingCommandsComplete_heldEvents :
    let full := List.replicate 3 (⟨1, .rstt⟩ : PendingEntry) ++ [⟨2, .disq 8 false 0⟩]
    let held (s : State) := s.modControl fun k => { k with state := .held, hand := some { command := 7 }, pendingList := full }
    let s := held (setRow {} 8 { ring with state := .stopping })
    let t := held (({} : State).modBus fun b => { b with state := .resetPulse 100 false, attachedNow := 3 })
    s.control.state = .held ∧ (s.queue 8).state = .stopping ∧ (s.queue 8).outstanding = 0 ∧ s.fetchOf 8 = none
      ∧ (s.control.pendingList.filter fun e => e.kind == .disq 8 false 0) ≠ []
      ∧ t.bus.state = .resetPulse 100 false ∧ t.control.state = .held := by decide

/-- A queue that the test leaves alone: not STOPPING, with a context outstanding, with a fetch in flight. -/
theorem witness_PendingCommandsComplete_stands :
    (({} : State).queue 8).state ≠ .stopping ∧ 0 < ((setRow {} 8 { ring with state := .stopping, outstanding := 1 }).queue 8).outstanding
      ∧ (fetching 0 1 0).fetchOf 1 ≠ none := by decide

theorem witness_PendingCommandsComplete_pulse :
    let s := (({} : State).joinPending ⟨1, .rstt⟩).pulseRequest
    s.bus.state = .resetPulse 100 false ∧ s.regs.resetting = false ∧ s.control.state ≠ .held ∧ s.bus.attachedNow = 1
      ∧ s.control.pendingList = [⟨1, .rstt⟩] := by decide

theorem witness_PendingCommandsComplete_held :
    let s := fun r => (setRow {} 0 ring).hold r
    let disq := parseControl (slotOf 3 8 0 1)
    (s disq).regs.resetting = false ∧ [(⟨1, .rstt⟩ : PendingEntry)] ≠ [] ∧ (s disq).control.state = .held
      ∧ (s disq).control.hand = some disq ∧ disq.command = 0x03 ∧ disq.queue.toNat = (8 : QueueId).val ∧ disq.mode.toNat ≤ 1
      ∧ ((s disq).queue 8).state = .disabled ∧ (parseControl (slotOf 7 0 0 0)).command = 0x07 := by decide

end Sys2Proof.Tests
end

section
/-! PROOFS. The due timers of contexts (R16, R17, R72, R77), and changes of one context one after another. -/
namespace Sys2Proof.Machine

/-! ### Changes of one context -/

/-- Two changes of one context, one after the other, are one change. -/
theorem State.modCtx_modCtx (s : State) (c : CtxId) (f g : Context → Context) :
    (s.modCtx c f).modCtx c g = s.modCtx c fun x => g (f x) := by
  simp [State.modCtx]

/-- Changes that agree on the context as it stands give the same state. -/
theorem State.modCtx_congr {s : State} {c : CtxId} {f g : Context → Context} (h : f (s.ctx c) = g (s.ctx c)) :
    s.modCtx c f = s.modCtx c g := by
  have h' : f s.contexts[c] = g s.contexts[c] := h
  simp only [State.modCtx, h']

/-- Settles O48: each of the three timers goes on by the same operation. -/
theorem dueTimerPreparesAgain : Obligations.DueTimerPreparesAgain := by
  unfold Obligations.DueTimerPreparesAgain
  intro s c due waits u
  have due_settles : ∀ k : TimerKind, (s.ctx c).timer = some (k, due) → s.timerDue c k = u.settle := by
    intro k h
    simp only [State.timerDue, h, waits, and_self, if_true]
    rfl
  refine ⟨fun h => ?_, fun h => ?_, fun h => ?_, outside_settle u⟩
  · exact congrArg Host.Outcome.next (due_settles .retry h)
  · exact congrArg Host.Outcome.next (due_settles .poll h)
  · exact congrArg Host.Outcome.next (due_settles .flow h)

end Sys2Proof.Machine
end

section
/-! PROOFS. The length of a segment (R9). -/

namespace Sys2Proof.Machine

/-! ### Segments (R9) -/

/-- A piece no longer than what its window has left ends in the same window. -/
theorem piece_stays_in_window {a n w : Nat} (pos : 0 < w) (some_ : 1 ≤ n) (fits : n ≤ w - a % w) :
    (a + n - 1) / w = a / w := by
  have below : a % w < w := Nat.mod_lt a pos
  have split : a + n - 1 = a % w + (n - 1) + w * (a / w) := by have := Nat.mod_add_div a w; omega
  rw [split, Nat.add_mul_div_left _ _ pos, Nat.div_eq_of_lt (by omega), Nat.zero_add]

/-- A piece that takes all that its window has left ends at the window's end. -/
theorem piece_fills_window {a w : Nat} (pos : 0 < w) : (a + (w - a % w)) % w = 0 := by
  have below : a % w < w := Nat.mod_lt a pos
  have split : a + (w - a % w) = w * (a / w + 1) := by have := Nat.mod_add_div a w; rw [Nat.mul_add]; omega
  rw [split, Nat.mul_mod_right]

theorem windowRoom_of_windowed {p : BusProfile} (h : p.windowed = true) (a : Nat) :
    windowRoom p a = 2 ^ p.window.toNat - a % 2 ^ p.window.toNat := by
  simp [windowRoom, h]

theorem windowRoom_of_not_windowed {p : BusProfile} (h : ¬ p.windowed = true) (a : Nat) : windowRoom p a = 256 := by
  simp [windowRoom, h]

/-- What a target leaves of a segment that begins at address `a`: what its window has left, or 256 bytes where the cut does
not look at it or it has no window. -/
theorem room_cases (cuts : Prop) [Decidable cuts] (p : BusProfile) (a : Nat) :
    let w := 2 ^ p.window.toNat
    let room := if cuts then windowRoom p a else 256
    1 ≤ room
      ∧ (∀ n, 1 ≤ n → n ≤ room → cuts → p.windowed = true → (a + n - 1) / w = a / w)
      ∧ (room = 256 ∨ (cuts ∧ p.windowed = true ∧ (a + room) % w = 0)) := by
  intro w room
  have pos : 0 < w := Nat.two_pow_pos _
  by_cases h : cuts ∧ p.windowed = true
  · have is_rest : room = w - a % w := (if_pos h.1).trans (windowRoom_of_windowed h.2 a)
    have below : a % w < w := Nat.mod_lt a pos
    refine ⟨by omega, fun n some_ fits _ _ => piece_stays_in_window pos some_ (is_rest ▸ fits), .inr ⟨h.1, h.2, ?_⟩⟩
    rw [is_rest, piece_fills_window pos]
  · have is_256 : room = 256 := by
      by_cases hc : cuts
      · exact (if_pos hc).trans (windowRoom_of_not_windowed (fun hw => h ⟨hc, hw⟩) a)
      · exact if_neg hc
    exact ⟨by omega, fun n _ _ hc hw => absurd ⟨hc, hw⟩ h, .inl is_256⟩

/-- Settles O47: a segment is the least of 256 bytes, what is left to move, and what each target's window has left. -/
theorem segmentCutAtWindowEnds : Obligations.SegmentCutAtWindowEnds := by
  unfold Obligations.SegmentCutAtWindowEnds
  intro o h p1 p2 start limit notPoll left n a1 a2 w1 w2
  obtain ⟨some1, stays1, full1⟩ := room_cases (h = .source) p1 a1
  obtain ⟨some2, stays2, full2⟩ := room_cases (o.isCopy = true) p2 a2
  have is_min : n = min (min 256 (limit - start)) (min (if h = .source then windowRoom p1 a1 else 256)
      (if o.isCopy = true then windowRoom p2 a2 else 256)) := if_neg notPoll
  generalize (if h = .source then windowRoom p1 a1 else 256) = room1 at *
  generalize (if o.isCopy = true then windowRoom p2 a2 else 256) = room2 at *
  have some_ : 1 ≤ n := by omega
  refine ⟨some_, by omega, by omega, stays1 n some_ (by omega), stays2 n some_ (by omega), ?_⟩
  have longest : n = 256 ∨ start + n = limit ∨ n = room1 ∨ n = room2 := by omega
  rcases longest with e | e | e | e
  · exact .inl e
  · exact .inr (.inl e)
  · rcases full1 with e' | full1
    · exact .inl (e.trans e')
    · exact .inr (.inr (.inl (e ▸ full1)))
  · rcases full2 with e' | full2
    · exact .inl (e.trans e')
    · exact .inr (.inr (.inr (e ▸ full2)))

end Sys2Proof.Machine
end

section
/-! PROOFS. What the end of a fetch leaves of the submission heads, and the return of a header slot (R4, R5, R152 to R155). -/

namespace Sys2Proof.Machine

/-! ### Submission heads and target states -/

/-- The submission heads and the target states: load end moves one head (R155), and what follows a fetch's end moves none
and sets no target's state. -/
def State.heads (s : State) : Vector Nat 9 × Vector TargetRow 16 := (s.queues.map QueueRow.subHead, s.targets)

theorem subHead_of_heads {s t : State} (h : t.heads = s.heads) (q : QueueId) :
    (t.queue q).subHead = (s.queue q).subHead := by
  have read : ∀ u : State, u.heads.1[q] = (u.queue q).subHead := fun u => by simp [State.heads, State.queue]
  rw [← read, ← read, h]

theorem heads_of_outside {s t : State} (h : t.outside = s.outside) : t.heads = s.heads := by
  have read : ∀ u : State, u.heads = (u.outside.queues.map QueueRow.subHead, u.outside.targets) := fun _ => rfl
  rw [read, read, h]

@[simp] theorem heads_modQueue (s : State) (q : QueueId) (f : QueueRow → QueueRow)
    (h : (f s.queues[q]).subHead = s.queues[q].subHead) : (s.modQueue q f).heads = s.heads := by
  refine Prod.ext (Vector.ext fun i hi => ?_) rfl
  by_cases e : q.val = i
  · subst e
    simpa [State.heads] using h
  · simp [State.heads, Vector.getElem_set_ne _ _ e]

@[simp] theorem heads_modPort (s : State) (f : HostPort → HostPort) : (s.modPort f).heads = s.heads := rfl

@[simp] theorem heads_modBus (s : State) (f : BusCtl → BusCtl) : (s.modBus f).heads = s.heads := rfl

@[simp] theorem heads_modControl (s : State) (f : ControlUnit → ControlUnit) : (s.modControl f).heads = s.heads := rfl

@[simp] theorem heads_modRegs (s : State) (f : Regs → Regs) : (s.modRegs f).heads = s.heads := rfl

@[simp] theorem heads_mapContexts (s : State) (f : Context → Context) : (s.mapContexts f).heads = s.heads := rfl

@[simp] theorem heads_handWrite (s : State) (w : PostedWrite) : (s.handWrite w).heads = s.heads := rfl

@[simp] theorem heads_handEntry (s : State) (q : QueueId) (c : Option CtxId) (n : Bool) (e : Entry) :
    (s.handEntry q c n e).heads = s.heads := by
  simp [State.handEntry, QueueRow.entryPlaced]

@[simp] theorem heads_controlDone (s : State) (e : Entry) : (s.controlDone e).heads = s.heads := by
  simp [State.controlDone]

@[simp] theorem heads_oweMessage (s : State) (q : QueueId) : (s.oweMessage q).heads = s.heads := by
  unfold State.oweMessage
  repeat' split
  · rfl
  · exact heads_modQueue _ q QueueRow.messageSent rfl
  · simp

@[simp] theorem heads_disable (s : State) (q : QueueId) : (s.disable q).heads = s.heads := by
  unfold State.disable
  dsimp only
  split <;> simp

@[simp] theorem heads_stopQueue (s : State) (q : QueueId) : (s.stopQueue q).heads = s.heads := by
  unfold State.stopQueue
  split <;> simp

@[simp] theorem heads_stopAndMark (s : State) (q : QueueId) (b : Bool) : (s.stopAndMark q b).heads = s.heads := by
  unfold State.stopAndMark
  dsimp only
  split
  · rw [foldl_keeps State.heads _ fun s c => heads_of_outside (outside_abort s c)]
    simp
  · simp

@[simp] theorem heads_runDisq (s : State) (r : ControlRecord) : (s.runDisq r).heads = s.heads := by
  unfold State.runDisq State.hold State.joinPending
  dsimp only
  repeat' split
  all_goals simp

@[simp] theorem heads_pulseRequest (s : State) : s.pulseRequest.heads = s.heads := by
  unfold State.pulseRequest State.pulseBegin
  dsimp only
  split <;> simp

@[simp] theorem heads_runRstt (s : State) (r : ControlRecord) : (s.runRstt r).heads = s.heads := by
  unfold State.runRstt State.hold State.joinPending
  split <;> simp

@[simp] theorem heads_controlTest (s : State) : s.controlTest.heads = s.heads := by
  unfold State.controlTest State.reserve State.refuse
  dsimp only
  repeat' split
  all_goals simp

@[simp] theorem heads_retakeHeld (s : State) : s.retakeHeld.heads = s.heads := by
  unfold State.retakeHeld
  split
  · dsimp only
    split <;> simp
  · rfl

@[simp] theorem heads_pendingDone (s : State) (d r : List PendingEntry) : (s.pendingDone d r).heads = s.heads := by
  unfold State.pendingDone
  split
  · rfl
  · rw [heads_retakeHeld, foldl_keeps State.heads _ fun _ _ => heads_controlDone _ _]
    simp

@[simp] theorem heads_queueTest (s : State) (q : QueueId) : (s.queueTest q).heads = s.heads := by
  unfold State.queueTest
  dsimp only
  split <;> simp

@[simp] theorem heads_visitQueue (s : State) (q : QueueId) : (s.visitQueue q).heads = s.heads := by
  unfold State.visitQueue State.refuse
  repeat' split
  · rfl
  · refine (heads_modQueue (s.reserve q) q (fun r => { r with outstanding := r.outstanding + 1 }) rfl).trans ?_
    exact heads_modQueue s q (fun r => { r with reserved := r.reserved + 1, refused := false }) rfl
  · simp
  · rfl

@[simp] theorem heads_fetchEvaluate (s : State) : s.fetchEvaluate.heads = s.heads := by
  unfold State.fetchEvaluate
  split
  · rfl
  · exact foldl_keeps State.heads _ (fun _ _ => heads_visitQueue _ _) _ _

@[simp] theorem heads_fetchEnded (s : State) (q : QueueId) : (s.fetchEnded q).heads = s.heads := by
  unfold State.fetchEnded
  rw [heads_of_outside (outside_settle _), heads_fetchEvaluate, heads_queueTest]

/-! ### A header slot returns -/

/-- A header slot whose read is awaited is handed to the Record Fetcher, its tag FREE (R152, R160). -/
theorem exec_headerSlotReturn {s : State} {i : TagId} {q : QueueId} {c : CtxId} {a : HostAddr} {slot : List Byte}
    (awaited : s.Awaits i { ref := .slot q c 0, addr := a, len := 64 }) (whole : slot.length = 64) :
    exec (.headerSlotReturn i (.data slot)) s = .next ((s.setTag i .free).headerReturned q c (.data slot)) := by
  obtain ⟨inFlight, running⟩ := awaited
  simp [exec, execHeaderSlotReturn, State.readReturns, inFlight, ReadRef.isHeader, responseComplete, whole, running,
    State.handResponse]

/-- The header of a record offered whole, of two to four slots, lists its extension reads (R154). -/
theorem headerReturned_extends {s : State} {q : QueueId} {c : CtxId} {f : FetchRecord} {slot : List Byte}
    (fetching : s.fetchOf q = some f) (two : 2 ≤ (parseHeader slot).slotCount) (four : (parseHeader slot).slotCount ≤ 4)
    (offered : (parseHeader slot).slotCount
      ≤ ((s.queue q).subTail + (s.queue q).subSize - f.firstSlot) % (s.queue q).subSize) :
    s.headerReturned q c (.data slot) =
      ((s.modCtx c fun x => x.withHeader (parseHeader slot) slot).setFetch q (some {
        context := c, firstSlot := f.firstSlot, phase := .extension
        expected := (parseHeader slot).slotCount, loaded := 1 })).modPort fun p =>
          { p with fetcherReads := p.fetcherReads
              ++ extensionReads (s.queue q) q c f.firstSlot (parseHeader slot).slotCount } := by
  have inRange : ¬ ((parseHeader slot).slotCount = 0 ∨ 4 < (parseHeader slot).slotCount) := by omega
  have notOne : (parseHeader slot).slotCount ≠ 1 := by omega
  simp only [State.headerReturned, fetching, Option.elim_some, inRange, if_false, Nat.not_lt.mpr offered, notOne]

/-- A row whose submission head has advanced by one slot (R155). -/
def QueueRow.slotConsumed (r : QueueRow) : QueueRow := { r with subHead := (r.subHead + 1) % r.subSize }

/-- The header of a one-slot record, and one whose slot count is out of range, ends the load, and the head advances by one
slot (R152, R153, R155). -/
theorem headerReturned_one_slot {s : State} {q : QueueId} {c : CtxId} {f : FetchRecord} {slot : List Byte}
    (fetching : s.fetchOf q = some f)
    (one : ((parseHeader slot).slotCount = 1
        ∧ 1 ≤ ((s.queue q).subTail + (s.queue q).subSize - f.firstSlot) % (s.queue q).subSize)
      ∨ (parseHeader slot).slotCount = 0 ∨ 4 < (parseHeader slot).slotCount) :
    s.headerReturned q c (.data slot) =
      (((((s.modCtx c fun x => x.withHeader (parseHeader slot) slot).modQueue q
        QueueRow.slotConsumed).setFetch q none).loadOutcome c .allLoaded).fetchEnded q) := by
  rcases one with ⟨isOne, offered⟩ | outOfRange
  · have notShort := Nat.not_lt.mpr offered
    simp only [State.headerReturned, fetching, Option.elim_some, isOne, notShort]
    rfl
  · simp only [State.headerReturned, outOfRange, if_true]
    rfl

/-- Settles O33: the two ways a header slot may go on, and the layout of the header by its definition. -/
theorem headerSlotLoadsRecord : Obligations.HeaderSlotLoadsRecord := by
  unfold Obligations.HeaderSlotLoadsRecord
  refine ⟨?extension, ?oneSlot, fun _ => rfl⟩
  case extension =>
    intro s i q c a f slot awaited whole fetching h r two four offered
    refine ⟨_, exec_headerSlotReturn awaited whole, ?_⟩
    exact headerReturned_extends (s := s.setTag i .free) fetching two four offered
  case oneSlot =>
    intro s i q c a f slot _ awaited whole fetching h one loaded
    have ends : (s.setTag i .free).headerReturned q c (.data slot) = (loaded.loadOutcome c .allLoaded).fetchEnded q :=
      headerReturned_one_slot (s := s.setTag i .free) fetching one
    have still : ((loaded.loadOutcome c .allLoaded).fetchEnded q).still = (s.setTag i .free).still := by
      rw [still_fetchEnded, still_of_outside (outside_loadOutcome _ _ _)]
      rfl
    have heads : ((loaded.loadOutcome c .allLoaded).fetchEnded q).heads = loaded.heads := by
      rw [heads_fetchEnded, heads_of_outside (outside_loadOutcome _ _ _)]
    have tags := congrArg Still.tags still
    refine ⟨_, (exec_headerSlotReturn awaited whole).trans (congrArg _ ends), ?_, rfl, ?_, fun p hp => ?_,
      congrArg Still.memory still, congrArg Still.clock still, congrArg Still.pending still, congrArg Prod.snd heads,
      fun j hj => ?_, ?_⟩
    · exact (congrArg (·[i]) tags).trans (State.tag_setTag_self s i .free)
    · exact (subHead_of_heads heads q).trans (congrArg QueueRow.subHead (State.queue_modQueue_self s q QueueRow.slotConsumed))
    · exact (subHead_of_heads heads p).trans (congrArg QueueRow.subHead (State.queue_modQueue_ne s QueueRow.slotConsumed hp))
    · exact (congrArg (·[j]) tags).trans (State.tag_setTag_ne s .free hj)
    · have regs := congrArg Still.regs still
      exact congrArg (fun r : Regs => { r with
        haltedMask := ((loaded.loadOutcome c .allLoaded).fetchEnded q).regs.haltedMask }) regs

end Sys2Proof.Machine
end

section
/-! PROOFS. The lasting part of a context through the discard of its staged segment, and the end of an op (R18 to R23). -/

namespace Sys2Proof.Machine

/-! ### The lasting part of one context -/

/-- Where the lasting parts of all contexts stand, so does that of each. -/
theorem lasting_ctx {s t : State} (h : t.lasting = s.lasting) (c : CtxId) : (t.ctx c).lasting = (s.ctx c).lasting := by
  rw [← State.lasting_get, ← State.lasting_get, h]

/-- A context whose staged segment has been discarded (R14). -/
def Context.unstaged (x : Context) : Context := { x with staged := none }

/-- The discard of a staged segment takes that segment alone from the lasting part of its context (R14). -/
theorem lasting_ctx_discardStaged (s : State) (c : CtxId) :
    ((s.discardStaged c).ctx c).lasting = (s.ctx c).unstaged.lasting := by
  rw [State.discardStaged, lasting_ctx (lasting_endRole _ _ _), State.ctx_modCtx_self]
  rfl

/-! ### The end of an op (R18 to R20, R23) -/

/-- The state in which an op's counts are made and its chunks ended, before its context goes on (R18). -/
def State.opClosed (s : State) (c : CtxId) (failure : Option Status) (bad : Bool) : State :=
  ((s.modCtx c fun x => x.opEnded failure bad).discardStaged c).endRole c .current

theorem lasting_ctx_opClosed (s : State) (c : CtxId) (failure : Option Status) (bad : Bool) :
    ((s.opClosed c failure bad).ctx c).lasting = ((s.ctx c).opEnded failure bad).unstaged.lasting := by
  rw [State.opClosed, lasting_ctx (lasting_endRole _ _ _), lasting_ctx_discardStaged, State.ctx_modCtx_self]

/-- What of a context the end of its op leaves alone, of what the context then asks for. -/
def Context.carried (x : Context) : (Bool × Bool × List Op × Option Nat) × BitVec 16 × Option QueueId × BitVec 32 × Nat
    × Option (BitVec 64) :=
  ((x.abortPending, x.continues, x.ops, x.opIndex), x.tag, x.queue, x.cookie, x.totalRetries, x.returnData)

theorem carried_opClosed (s : State) (c : CtxId) (failure : Option Status) (bad : Bool) :
    ((s.opClosed c failure bad).ctx c).carried = (s.ctx c).carried := by
  have closed : ((s.opClosed c failure bad).ctx c).carried = ((s.ctx c).opEnded failure bad).carried :=
    (congrArg Context.carried (lasting_ctx_opClosed s c failure bad) :)
  rw [closed]
  cases failure <;> rfl

/-- The same, field by field. -/
theorem opClosed_keeps (s : State) (c : CtxId) (failure : Option Status) (bad : Bool) :
    let x := s.ctx c
    let z := (s.opClosed c failure bad).ctx c
    (z.abortPending = x.abortPending ∧ z.continues = x.continues ∧ z.ops = x.ops ∧ z.opIndex = x.opIndex)
      ∧ z.tag = x.tag ∧ z.queue = x.queue ∧ z.cookie = x.cookie ∧ z.totalRetries = x.totalRetries
      ∧ z.returnData = x.returnData := by
  have h := carried_opClosed s c failure bad
  simpa only [Context.carried, Prod.mk.injEq] using h

section
variable {s : State} {c : CtxId} {failure : Option Status} {bad : Bool}

/-- With an abort pending the context completes ABORTED (R23). -/
theorem endOp_aborted (h : (s.ctx c).abortPending = true) :
    s.endOp c failure bad = (s.opClosed c failure bad).completeAborted c := by
  obtain ⟨⟨abort, -⟩, -⟩ := opClosed_keeps s c failure bad
  exact if_pos (abort.trans h)

/-- A failure under STOP completes with its code (R18). -/
theorem endOp_stops {code : Status} (h : (s.ctx c).abortPending = false) (stop : (s.ctx c).continues = false) :
    s.endOp c (some code) bad = (s.opClosed c (some code) bad).complete c code (some code) := by
  obtain ⟨⟨abort, policy, -⟩, -⟩ := opClosed_keeps s c (some code) bad
  exact (if_neg (ne_true_of_eq_false (abort.trans h))).trans (if_neg (ne_true_of_eq_false (policy.trans stop)))

/-- A success, and a failure under CONTINUE, goes on to the next op (R18). -/
theorem endOp_goes_on (h : (s.ctx c).abortPending = false) (on : failure = none ∨ (s.ctx c).continues = true) :
    s.endOp c failure bad = (s.opClosed c failure bad).nextOp c := by
  obtain ⟨⟨abort, policy, -⟩, -⟩ := opClosed_keeps s c failure bad
  refine (if_neg (ne_true_of_eq_false (abort.trans h))).trans ?_
  cases failure with
  | none => rfl
  | some code => exact if_pos (policy.trans (on.resolve_left (by simp)))

end

theorem ctx_complete (s : State) (c : CtxId) (status : Status) (first : Option Status) :
    (s.complete c status first).ctx c = (s.ctx c).completed status first :=
  State.ctx_modCtx_self _ c _

/-- The last op's end completes the context OK, or PARTIAL with the first error kept (R18, R20). -/
theorem nextOp_completes {s : State} {c : CtxId} {k : Nat} (index : (s.ctx c).opIndex = some k)
    (last : (s.ctx c).ops.length ≤ k) : s.nextOp c =
      if (s.ctx c).opsFailed = 0 then s.complete c .ok none else s.complete c .partialFail (s.ctx c).firstError := by
  simp [State.nextOp, index, Nat.not_le.mpr (Nat.lt_succ_of_le last)]

/-- The next op becomes current (R8). -/
theorem ctx_nextOp {s : State} {c : CtxId} {k : Nat} (index : (s.ctx c).opIndex = some k)
    (more : k < (s.ctx c).ops.length) : (s.nextOp c).ctx c =
      { (s.ctx c).withOp (k + 1) with
        state := .preparing, prep := if (s.chunksOf c).isEmpty then .run .start else .waitFreed } := by
  simp [State.nextOp, index, Nat.succ_le_of_lt more]

/-- What an op's end counts and keeps (R18): the bytes field, the two op counts, the first error and the failing op. -/
def Context.tally (x : Context) : BitVec 32 × Nat × Nat × Option Status × Option Nat :=
  (x.bytes, x.opsCompleted, x.opsFailed, x.firstError, x.failing)

theorem tally_complete (s : State) (c : CtxId) (status : Status) (first : Option Status) :
    ((s.complete c status first).ctx c).tally = (s.ctx c).tally := by
  rw [ctx_complete]
  rfl

theorem tally_nextOp (s : State) (c : CtxId) : ((s.nextOp c).ctx c).tally = (s.ctx c).tally := by
  unfold State.nextOp
  dsimp only
  split
  · rw [State.ctx_modCtx_self]
    rfl
  · split <;> exact tally_complete _ _ _ _

theorem tally_opClosed (s : State) (c : CtxId) (failure : Option Status) (bad : Bool) :
    ((s.opClosed c failure bad).ctx c).tally = ((s.ctx c).opEnded failure bad).tally :=
  (congrArg Context.tally (lasting_ctx_opClosed s c failure bad) :)

/-- Whatever an op's end leads to, the context's counts are those of R18. -/
theorem tally_endOp (s : State) (c : CtxId) (failure : Option Status) (bad : Bool) :
    ((s.endOp c failure bad).ctx c).tally = ((s.ctx c).opEnded failure bad).tally := by
  rw [← tally_opClosed]
  unfold State.endOp
  dsimp only
  split
  · exact tally_complete _ _ _ _
  · split
    · split
      · exact tally_nextOp _ _
      · exact tally_complete _ _ _ _
    · exact tally_nextOp _ _

/-- The counts and codes of an op's end, each by itself (R18). -/
theorem opEnded_fields (x : Context) (failure : Option Status) (bad : Bool) :
    let y := x.opEnded failure bad
    y.bytes = (if bad then badProfileDetail else BitVec.ofNat 32 x.movedBytes)
      ∧ y.opsCompleted = x.opsCompleted + (if failure = none then 1 else 0)
      ∧ y.opsFailed = x.opsFailed + (if failure = none then 0 else 1)
      ∧ y.firstError = x.firstError.or failure
      ∧ y.failing = (if x.firstError = none ∧ failure ≠ none then x.opIndex else x.failing) := by
  cases failure <;> cases h : x.firstError <;> simp [Context.opEnded, h]

/-- The entry a context completes with after its op's end holds the context's own fields, with the counts as they then
stand (R19). -/
theorem assemble_opClosed (s : State) (c : CtxId) (failure : Option Status) (bad : Bool) (status : Status)
    (code : Option Status) :
    let x := s.ctx c
    let z := (s.opClosed c failure bad).ctx c
    z.assemble status code = {
      tag := x.tag, queue := x.queue.getD 0, status, first := code, failing := z.failing
      opsCompleted := z.opsCompleted, opsFailed := z.opsFailed, bytes := z.bytes
      totalRetries := x.totalRetries, ret := x.returnData, cookie := x.cookie } := by
  intro x z
  obtain ⟨-, tag, queue, cookie, total, ret⟩ := opClosed_keeps s c failure bad
  simp only [Context.assemble, z, x, tag, queue, cookie, total, ret]

/-- Settles O17: the counts by `tally_endOp`, and what the context goes on to by its policy. -/
theorem opEndsByPolicy : Obligations.OpEndsByPolicy := by
  unfold Obligations.OpEndsByPolicy
  intro s c o k failure bad index _ op x t y moved first
  obtain ⟨⟨-, -, ops, opIndex⟩, -, -, -, total, ret⟩ := opClosed_keeps s c failure bad
  obtain ⟨bytes, completed, failed, firstError, failing⟩ := opEnded_fields x failure bad
  have tally := tally_endOp s c failure bad
  have tallyClosed := tally_opClosed s c failure bad
  simp only [Context.tally, Prod.mk.injEq] at tally tallyClosed
  obtain ⟨yBytes, yCompleted, yFailed, yFirst, yFailing⟩ := tally
  obtain ⟨-, -, zFailed, zFirst, -⟩ := tallyClosed
  have moved_eq : x.movedBytes = moved := by simp only [Context.movedBytes, x, op, moved]
  have zIndex := opIndex.trans index
  have done_of (status : Status) (code : Option Status)
      (h : t = (s.opClosed c failure bad).complete c status code) :
      y.state = .completing ∧ y.opIndex = none ∧ y.timer = none ∧ y.entry = some {
        tag := x.tag, queue := x.queue.getD 0, status, first := code, failing := y.failing
        opsCompleted := y.opsCompleted, opsFailed := y.opsFailed, bytes := y.bytes
        totalRetries := x.totalRetries, ret := x.returnData, cookie := x.cookie } := by
    have hy : y = ((s.opClosed c failure bad).ctx c).completed status code := by rw [← ctx_complete, ← h]
    rw [hy]
    exact ⟨rfl, rfl, rfl, congrArg some (assemble_opClosed s c failure bad status code)⟩
  refine ⟨yBytes.trans (moved_eq ▸ bytes), yCompleted.trans completed, yFailed.trans failed, yFirst.trans firstError,
    yFailing.trans (index ▸ failing), fun abort on more => ?next, ⟨fun abort => ?aborted, fun code abort failed stop => ?stops,
      fun abort on last clean => ?ok, fun abort on last dirty => ?partialFail⟩, outside_endOp s c failure bad⟩
  case next =>
    have hy : y = _ := (congrArg (State.ctx · c) (endOp_goes_on abort on)).trans (ctx_nextOp zIndex (ops ▸ more))
    rw [hy]
    exact ⟨rfl, rfl, rfl, rfl, rfl, rfl, rfl, rfl, rfl, rfl, rfl, rfl, ret, total⟩
  case aborted =>
    refine done_of .aborted first ((endOp_aborted abort).trans ?_)
    rw [State.completeAborted, zFirst, firstError]
  case stops =>
    subst failed
    exact done_of code (some code) (endOp_stops abort stop)
  case ok =>
    refine done_of .ok none ((endOp_goes_on abort on).trans ((nextOp_completes zIndex (ops ▸ last)).trans (if_pos ?_)))
    exact (zFailed.trans yFailed.symm).trans clean
  case partialFail =>
    refine done_of .partialFail first
      ((endOp_goes_on abort on).trans ((nextOp_completes zIndex (ops ▸ last)).trans ((if_neg ?_).trans ?_)))
    · exact fun h => dirty ((yFailed.trans zFailed.symm).trans h)
    · rw [zFirst, firstError]

end Sys2Proof.Machine
end

section
/-! PROOFS. The steps of a preparation (R10): what each test asks in the spec's words, one equation for each way through a
step, and a preparation that passes all of them. -/

namespace Sys2Proof.Machine

/-! ### What the tests ask -/

theorem Op.isCopy_iff (o : Op) : o.isCopy = true ↔ o.kind = .copy := by simp [Op.isCopy]

theorem Op.isCopy_eq_false_iff (o : Op) : o.isCopy = false ↔ o.kind ≠ .copy := by simp [Op.isCopy]

/-- The ops that move their data through staging memory (R10, step 6). -/
theorem Op.usesChunk_iff (o : Op) : o.usesChunk = true ↔
    o.kind = .copy ∨ o.kind = .drain ∨ (o.kind = .write ∧ o.inline = false) ∨ (o.kind = .read ∧ o.ret = false) := by
  simp only [Op.usesChunk, Op.readsHost, Op.writesHost, Op.isCopy, Bool.or_eq_true, Bool.and_eq_true, beq_iff_eq,
    Bool.not_eq_true']
  constructor
  · rintro ((write | read | drain) | copy)
    · exact .inr (.inr (.inl write))
    · exact .inr (.inr (.inr read))
    · exact .inr (.inl drain)
    · exact .inl copy
  · rintro (copy | drain | write | read)
    · exact .inr copy
    · exact .inl (.inr (.inr drain))
    · exact .inl (.inl write)
    · exact .inl (.inr (.inl read))

theorem BusProfile.isMemory_iff (p : BusProfile) : p.isMemory = true ↔ p.cls = 0 := by simp [BusProfile.isMemory]

theorem Half.ne_source_iff (h : Half) : h ≠ .source ↔ h = .destination := by cases h <;> simp

/-- The copies a half needs (R91). -/
theorem Context.hasCopies_iff (x : Context) (o : Op) : x.hasCopies o = true ↔
    if x.half = .source then x.prof1 ≠ none ∧ (o.kind = .copy → x.prof2 ≠ none) else x.prof2 ≠ none := by
  unfold Context.hasCopies
  cases x.half <;> simp [Op.isCopy, Option.isSome_iff_ne_none, Decidable.imp_iff_not_or]

/-- A target that the preparation checks is QUARANTINED (R81). -/
theorem State.checked_quarantined_iff (s : State) (x : Context) (o : Op) :
    (x.checkedTargets o).any s.quarantined = true ↔
      if x.half = .source then ∃ t ∈ o.targets, s.targets[t] ≠ none else s.targets[o.target2] ≠ none := by
  unfold Context.checkedTargets State.quarantined
  cases x.half <;> simp [Option.isSome_iff_ne_none]

/-- Which op-level checks a preparation makes, and when (R29, R31; log 28). -/
theorem Context.checkFailure_eq (x : Context) (o : Op) : x.checkFailure o =
    if (if x.half = .source then (x.begun = false ∧ x.offset = 0) ∨ x.checking = true else x.recheck = true) then
      if x.half = .source then opChecks o x.lockMask (x.profileOf .source) (x.profileOf .destination) x.offset
      else destinationChecks o (x.profileOf .destination) x.offset
    else none := by
  unfold Context.checkFailure
  cases x.half <;> simp

/-! ### The target-reset mark (R24) -/

theorem readInFlight_dropReads (s : State) (p q : ReadRef → Bool) : (s.dropReads p).readInFlight q = s.readInFlight q :=
  rfl

theorem resetFails_waits {s : State} {c : CtxId} (h : s.ReadsInFlight (·.isDataOf c)) :
    s.resetFails c = (s.dropReads (·.isDataOf c)).setPrep c .waitReads :=
  if_pos ((readInFlight_dropReads s _ _).trans ((s.readInFlight_iff _).mpr h))

theorem resetFails_fails {s : State} {c : CtxId} (h : ¬ s.ReadsInFlight (·.isDataOf c)) :
    s.resetFails c = (s.dropReads (·.isDataOf c)).endOp c (some .targetReset) :=
  if_neg fun e => h ((s.readInFlight_iff _).mp ((readInFlight_dropReads s _ _).symm.trans e))

theorem prepStart_marked {s : State} {c : CtxId} (h : (s.ctx c).targetReset = true) : s.prepStart c = s.resetFails c :=
  if_pos h

theorem prepStart_unmarked {s : State} {c : CtxId} (h : (s.ctx c).targetReset = false) : s.prepStart c = s.prepLookup c :=
  if_neg (ne_true_of_eq_false h)

/-! ### The segment cut (R9, R12) -/

theorem Op.addrAt_eq (o : Op) (h : Half) (p : BusProfile) (n : Nat) : o.addrAt h p n =
    let a := if h = .source then o.addr else o.addr2
    if p.cls = 0 then a + BitVec.ofNat 24 n else a := by
  simp only [Op.addrAt, BusProfile.isMemory_iff]
  cases h <;> rfl

theorem Op.targetOf_eq (o : Op) (h : Half) : o.targetOf h = if h = .source then o.target else o.target2 := by
  cases h <;> rfl

theorem Context.cut_eq (x : Context) (o : Op) :
    let g := x.segment.getD { base := x.offset }
    let p := x.profileOf g.half
    let a := if g.half = .source then o.addr else o.addr2
    let start := g.base + g.place
    let limit := if g.remainder = true ∨ g.half = .destination then start + g.len else o.length
    x.cut o = { g with
      target := if g.half = .source then o.target else o.target2
      addr := if p.bus.cls = 0 then a + BitVec.ofNat 24 start else a
      len := segmentLength o g.half (x.profileOf .source).bus (x.profileOf .destination).bus start limit } := by
  intro g p a start limit
  have limit_eq : (if (g.remainder || g.half == .destination) = true then start + g.len else o.length) = limit := by
    simp only [Bool.or_eq_true, beq_iff_eq, limit]
  rw [← limit_eq, ← Op.targetOf_eq, ← Op.addrAt_eq]
  rfl

/-- A cut keeps the half. -/
theorem Context.cut_half (x : Context) (o : Op) : (x.cut o).half = x.half := by
  unfold Context.cut Context.half
  cases x.segment <;> rfl

/-! ### One equation for each way through a step -/

section
variable {s : State} {c : CtxId} {o : Op}

theorem prepLookup_source (op : (s.ctx c).op = some o) (half : (s.ctx c).half = .source) :
    s.prepLookup c = (s.modCtx c Context.lookingUp).lookup c o.target false := by
  simp only [State.prepLookup, op, half]

theorem prepLookup_destination (op : (s.ctx c).op = some o) (half : (s.ctx c).half = .destination) :
    s.prepLookup c = (s.modCtx c fun y => { y with prof2 := none }).lookup c o.target2 true := by
  simp only [State.prepLookup, op, half]

/-- A good profile goes on: to a COPY's second lookup, back to step 2, or to the checks (R91, R98; log 36). -/
theorem prepJudge_good {second : Bool} {p : Profile} (op : (s.ctx c).op = some o)
    (copy : (s.ctx c).copyOf second = some p) (good : judgeProfile p = .good) : s.prepJudge c second =
      if second = false ∧ o.kind = .copy then s.lookup c o.target2 true
      else if (s.ctx c).hasCopies o = true then s.prepChecks c
      else s.setPrep c (.run .lookup) := by
  simp only [State.prepJudge, op, copy, good, Bool.and_eq_true, Bool.not_eq_true', Op.isCopy_iff]
  cases (s.ctx c).hasCopies o <;> rfl

theorem prepChecks_quarantined (op : (s.ctx c).op = some o)
    (h : ((s.ctx c).checkedTargets o).any s.quarantined = true) :
    s.prepChecks c = s.endOp c (some .targetQuarantined) := by
  simp only [State.prepChecks, op, h, if_true]
  rfl

theorem prepChecks_fails {code : Status} (op : (s.ctx c).op = some o)
    (h : ¬ ((s.ctx c).checkedTargets o).any s.quarantined = true) (fails : (s.ctx c).checkFailure o = some code) :
    s.prepChecks c = s.endOp c (some code) := by
  simp only [State.prepChecks, op, h, fails]
  rfl

theorem prepChecks_passes (op : (s.ctx c).op = some o) (h : ¬ ((s.ctx c).checkedTargets o).any s.quarantined = true)
    (passes : (s.ctx c).checkFailure o = none) :
    s.prepChecks c = (s.modCtx c fun y => { y with checking := false }).prepCut c := by
  simp only [State.prepChecks, op, h, passes]
  rfl

/-- The cut segment takes its place in the context. -/
def State.putCut (s : State) (c : CtxId) (g : Segment) : State := s.modCtx c fun y => { y with segment := some g }

theorem prepCut_chunkless (op : (s.ctx c).op = some o) (chunkless : o.usesChunk = false) :
    s.prepCut c = (s.putCut c ((s.ctx c).cut o)).prepReady c := by
  simp only [State.prepCut, op, chunkless]
  rfl

theorem prepCut_claims (op : (s.ctx c).op = some o) (uses : o.usesChunk = true) (none_ : s.chunkWith c .current = none) :
    s.prepCut c = (s.putCut c ((s.ctx c).cut o)).claimFirst c := by
  simp only [State.prepCut, op, uses, none_]
  rfl

/-- A segment cut longer reads its host data anew, unless its read has met an error (R12, R14, R124, R125). -/
def Context.readsAnew (x : Context) (o : Op) : Bool :=
  o.readsHost && (x.segment.any fun old => decide (old.len < (x.cut o).len)) && !(x.cut o).readLost

theorem Context.readsAnew_iff (x : Context) (o : Op) : x.readsAnew o = true ↔
    o.readsHost = true ∧ (∃ old, x.segment = some old ∧ old.len < (x.cut o).len)
      ∧ (x.cut o).hostRead ≠ .failed ∧ (x.cut o).readError = false := by
  simp [Context.readsAnew, Segment.readLost, Option.any_eq_true, and_assoc]

/-- The chunk held takes the length and the targets of the segment as cut (R117). -/
def State.holdCut (s : State) (c : CtxId) (k : ChunkId) (o : Op) (g : Segment) : State :=
  s.setChunk k (some { context := c, role := .current, targets := o.targets, length := g.len })

theorem prepCut_keeps {k : ChunkId} (op : (s.ctx c).op = some o) (uses : o.usesChunk = true)
    (holds : s.chunkWith c .current = some k) (same : ¬ (s.ctx c).readsAnew o = true) :
    s.prepCut c = ((s.holdCut c k o ((s.ctx c).cut o)).putCut c ((s.ctx c).cut o)).prepData c := by
  unfold Context.readsAnew at same
  simp only [State.prepCut, op, uses, holds, same]
  rfl

theorem prepCut_reads_anew {k : ChunkId} {u : State} {m : Segment} (op : (s.ctx c).op = some o) (uses : o.usesChunk = true)
    (holds : s.chunkWith c .current = some k) (longer : (s.ctx c).readsAnew o = true)
    (again : (s.holdCut c k o ((s.ctx c).cut o)).readAgain c k o ((s.ctx c).cut o) = (u, m)) :
    s.prepCut c = (u.putCut c m).prepData c := by
  unfold State.holdCut at again
  unfold Context.readsAnew at longer
  simp only [State.prepCut, op, uses, holds, longer, again]
  rfl

theorem readAgain_waits {k : ChunkId} {g : Segment} (h : s.ReadsInFlight (·.isChunk k)) :
    s.readAgain c k o g
      = (s.dropReads (·.isChunk k), { g with hostRead := .pending, readError := false, reread := true }) :=
  if_pos ((readInFlight_dropReads s _ _).trans ((s.readInFlight_iff _).mpr h))

theorem readAgain_lists {k : ChunkId} {g : Segment} (h : ¬ s.ReadsInFlight (·.isChunk k)) :
    s.readAgain c k o g = ((s.dropReads (·.isChunk k)).listReads c k o g, g.reading) :=
  if_neg fun e => h ((s.readInFlight_iff _).mp ((readInFlight_dropReads s _ _).symm.trans e))

theorem prepare_claim (op : (s.ctx c).op = some o) (place : (s.ctx c).prep = .run .claim) :
    s.prepare c = if (s.ctx c).hasCopies o = true then s.claimFirst c else s.setPrep c (.run .lookup) := by
  simp only [State.prepare, place, State.prepClaim, op]

/-- Step 7 (R10, R98, R125; log 35). -/
theorem prepData_eq {g : Segment} (op : (s.ctx c).op = some o) (segment : (s.ctx c).segment = some g) : s.prepData c =
    if o.readsHost = false then s.prepReady c
    else if g.hostRead = .failed then s.endOp c (some .hostReadError)
    else if (s.ctx c).hasCopies o = false then s.setPrep c (.run .lookup)
    else if g.hostRead = .arrived then s.prepReady c
    else s.setPrep c .waitData := by
  simp only [State.prepData, op, segment, Bool.not_eq_true', State.failOp]

/-- The last test (R10, R24, R81, R98; log 35). -/
theorem prepReady_eq (op : (s.ctx c).op = some o) : s.prepReady c =
    if (s.ctx c).hasCopies o = false then s.setPrep c (.run .lookup)
    else if (s.ctx c).targetReset = true then s.resetFails c
    else if ((s.ctx c).checkedTargets o).any s.quarantined = true then s.endOp c (some .targetQuarantined)
    else s.modCtx c fun y => { y with state := .busReady, prep := .none } := by
  simp only [State.prepReady, op, Bool.not_eq_true', State.failOp]

end

/-! ### Settling where one context alone can go on -/

theorem finRange_filter_beq : ∀ c : CtxId, (List.finRange 16).filter (· == c) = [c] := by decide

/-- The contexts that satisfy a test which `c` alone satisfies. -/
theorem finRange_filter_one {p : CtxId → Bool} {c : CtxId} (yes : p c = true) (no : ∀ d, d ≠ c → p d = false) :
    (List.finRange 16).filter p = [c] := by
  rw [← finRange_filter_beq c]
  refine List.filter_congr fun d _ => ?_
  by_cases h : d = c
  · rw [h, yes, beq_self_eq_true]
  · rw [no d h, beq_eq_false_iff_ne.mpr h]

theorem nextRunnable_one {s : State} {c : CtxId} (yes : (s.ctx c).runnable = true)
    (no : ∀ d, d ≠ c → (s.ctx d).runnable = false) : s.nextRunnable = some c := by
  rw [State.nextRunnable, finRange_filter_one (p := fun d => (s.ctx d).runnable) yes no]
  rfl

theorem nextRunnable_none {s : State} (no : s.Settled) : s.nextRunnable = none := by
  have empty : (List.finRange 16).filter (fun d => (s.ctx d).runnable) = [] := by simpa using fun d => no d
  rw [State.nextRunnable, empty]
  rfl

theorem settleFor_runs {s : State} {c : CtxId} (h : s.nextRunnable = some c) (n : Nat) :
    s.settleFor (n + 1) = (s.prepare c).settleFor n := by
  simp only [State.settleFor, h]

theorem settleFor_of_settled {s : State} (h : s.Settled) (n : Nat) : s.settleFor n = s := by
  cases n with
  | zero => rfl
  | succ n => simp only [State.settleFor, nextRunnable_none h]

/-! ### A preparation that passes every step -/

section
variable {s : State} {c : CtxId} {o : Op}

/-- From step 1 with the profile in the cache: the context has its copy, to be judged (R91). -/
theorem prepare_takes_copy {e : EntryId} {f : CacheEntry} (op : (s.ctx c).op = some o) (half : (s.ctx c).half = .source)
    (place : (s.ctx c).prep = .run .start) (unmarked : (s.ctx c).targetReset = false)
    (hit : s.cached o.target = some e) (entry : s.cache.entries[e] = some f) :
    s.prepare c = (s.touch e).modCtx c fun x =>
      { x.lookingUp with prof1 := some f.profile, prep := .run (.judge false) } := by
  have toLookup : s.prepare c = s.prepLookup c := by simp only [State.prepare, place, prepStart_unmarked unmarked]
  have hit' : (s.modCtx c Context.lookingUp).cached o.target = some e := hit
  rw [toLookup, prepLookup_source op half]
  simp only [State.lookup, hit', State.modCtx_cache, entry]
  exact State.modCtx_modCtx (s.touch e) c _ _

/-- What the last test asks of a source half of an op with one target (R10, R24, R81, R98). -/
structure State.SourceFits (s : State) (c : CtxId) (o : Op) (p : Profile) : Prop where
  op : (s.ctx c).op = some o
  single : o.kind ≠ .copy
  half : (s.ctx c).half = .source
  copy : (s.ctx c).prof1 = some p
  unmarked : (s.ctx c).targetReset = false
  normal : s.targets[o.target] = none

theorem State.SourceFits.hasCopies {p : Profile} (h : s.SourceFits c o p) : (s.ctx c).hasCopies o = true := by
  simp [(s.ctx c).hasCopies_iff, h.half, h.copy, h.single]

theorem State.SourceFits.noneQuarantined {p : Profile} (h : s.SourceFits c o p) :
    ¬ ((s.ctx c).checkedTargets o).any s.quarantined = true := by
  have targets : o.targets = [o.target] := by simp [Op.targets, (o.isCopy_eq_false_iff).mpr h.single]
  simpa [s.checked_quarantined_iff, h.half, targets] using h.normal

/-- A change of the context that none of the tests looks at. -/
theorem State.SourceFits.modCtx {p : Profile} (h : s.SourceFits c o p) {f : Context → Context}
    (op : (f (s.ctx c)).op = (s.ctx c).op) (half : (f (s.ctx c)).half = (s.ctx c).half)
    (copy : (f (s.ctx c)).prof1 = (s.ctx c).prof1) (mark : (f (s.ctx c)).targetReset = (s.ctx c).targetReset) :
    (s.modCtx c f).SourceFits c o p where
  op := by rw [State.ctx_modCtx_self, op, h.op]
  single := h.single
  half := by rw [State.ctx_modCtx_self, half, h.half]
  copy := by rw [State.ctx_modCtx_self, copy, h.copy]
  unmarked := by rw [State.ctx_modCtx_self, mark, h.unmarked]
  normal := h.normal

theorem prepReady_passes {p : Profile} (h : s.SourceFits c o p) :
    s.prepReady c = s.modCtx c fun x => { x with state := .busReady, prep := .none } := by
  simp only [prepReady_eq h.op, h.hasCopies, h.unmarked, h.noneQuarantined, Bool.true_eq_false, Bool.false_eq_true, if_false]

theorem prepCut_passes {p : Profile} (h : s.SourceFits c o p) (chunkless : o.usesChunk = false) :
    s.prepCut c = s.modCtx c fun x => { x with segment := some (x.cut o), state := .busReady, prep := .none } := by
  have kept : (s.putCut c ((s.ctx c).cut o)).SourceFits c o p := h.modCtx rfl ((s.ctx c).cut_half o) rfl rfl
  rw [prepCut_chunkless h.op chunkless, prepReady_passes kept, State.putCut, State.modCtx_modCtx]
  exact State.modCtx_congr rfl

/-- From the judgement of a good profile on, an op with no chunk to claim passes every step that is left (R10). -/
theorem prepare_passes {p : Profile} (h : s.SourceFits c o p) (chunkless : o.usesChunk = false)
    (place : (s.ctx c).prep = .run (.judge false)) (good : judgeProfile p = .good)
    (passes : (s.ctx c).checkFailure o = none) :
    s.prepare c = s.modCtx c fun x =>
      { x with checking := false, segment := some (x.cut o), state := .busReady, prep := .none } := by
  have judged : s.prepJudge c false = _ := prepJudge_good h.op (second := false) h.copy good
  have toChecks : s.prepare c = s.prepChecks c := by
    simp only [State.prepare, place, judged, h.single, and_false, if_false, h.hasCopies, if_true]
  have kept : (s.modCtx c fun y => { y with checking := false }).SourceFits c o p := h.modCtx rfl rfl rfl rfl
  rw [toChecks, prepChecks_passes h.op h.noneQuarantined passes, prepCut_passes kept chunkless, State.modCtx_modCtx]
  rfl

end

/-- The only context that can go on, with all it needs and no chunk to claim, passes every step at once (R10). -/
theorem settle_passes {s : State} {c : CtxId} {o : Op} {e : EntryId} {f : CacheEntry} (running : s.regs.resetting = false)
    (others : ∀ d, d ≠ c → (s.ctx d).runnable = false) (state : (s.ctx c).state = .preparing)
    (place : (s.ctx c).prep = .run .start) (unmarked : (s.ctx c).targetReset = false) (op : (s.ctx c).op = some o)
    (chunkless : o.usesChunk = false) (half : (s.ctx c).half = .source) (hit : s.cached o.target = some e)
    (entry : s.cache.entries[e] = some f) (good : judgeProfile f.profile = .good) (normal : s.targets[o.target] = none)
    (passes : opChecks o (s.ctx c).lockMask f.profile {} (s.ctx c).offset = none) :
    let x := { s.ctx c with prof1 := some f.profile, prof2 := none, recheck := false, checking := false }
    s.settle = (s.touch e).modCtx c fun _ =>
      { x with state := .busReady, prep := .none, segment := some (x.cut o) } := by
  intro x
  let u := s.prepare c
  have took : u = (s.touch e).modCtx c fun x =>
      { x.lookingUp with prof1 := some f.profile, prep := .run (.judge false) } :=
    prepare_takes_copy op half place unmarked hit entry
  have xu : u.ctx c = { (s.ctx c).lookingUp with prof1 := some f.profile, prep := .run (.judge false) } := by
    rw [took]; exact State.ctx_modCtx_self (s.touch e) c _
  have uOthers : ∀ d, d ≠ c → (u.ctx d).runnable = false := fun d h => by
    rw [took, State.ctx_modCtx_ne _ _ h]; exact others d h
  have checksPass : (u.ctx c).checkFailure o = none := by
    rw [Context.checkFailure_eq, xu]
    have source : ({ (s.ctx c).lookingUp with prof1 := some f.profile, prep := .run (.judge false) } : Context).half
      = .source := half
    simp only [source, if_true, ite_eq_right_iff]
    exact fun _ => passes
  have fits : u.SourceFits c o f.profile := {
    op := by rw [xu]; exact op
    single := fun h => by simp [(o.usesChunk_iff).mpr (.inl h)] at chunkless
    half := by rw [xu]; exact half
    copy := by rw [xu]
    unmarked := by rw [xu]; exact unmarked
    normal := by rw [took]; exact normal }
  have passed := prepare_passes fits chunkless (by rw [xu]) good checksPass
  have done : (u.prepare c).Settled := fun d => by
    by_cases h : d = c
    · subst h
      rw [passed, State.ctx_modCtx_self]
      rfl
    · rw [passed, State.ctx_modCtx_ne _ _ h]
      exact uOthers d h
  have first : s.nextRunnable = some c := nextRunnable_one (by simp [Context.runnable, state, place]) others
  have second : u.nextRunnable = some c :=
    nextRunnable_one (by rw [xu]; simp [Context.runnable, Context.lookingUp, state]) uOthers
  calc s.settle = s.settleFor (4094 + 1 + 1) := if_neg (ne_true_of_eq_false running)
    _ = u.prepare c := by rw [settleFor_runs first, settleFor_runs second, settleFor_of_settled done]
    _ = _ := by
      rw [passed, took, State.modCtx_modCtx]
      exact State.modCtx_congr rfl

/-- Settles O19: each step by its own equation, and a preparation that passes them all by `settle_passes`. -/
theorem preparationTakesItsSteps : Obligations.PreparationTakesItsSteps := by
  unfold Obligations.PreparationTakesItsSteps
  refine ⟨?marks, Context.cut_eq, ?steps, ?passes⟩
  case marks =>
    intro s c w
    refine ⟨resetFails_waits, resetFails_fails, fun place mark => ?_, fun place mark => ?_, fun place => ?_,
      fun second place => ?_, fun place => ?_⟩
    · simp only [State.prepare, place, prepStart_marked mark]
    · simp only [State.prepare, place, prepStart_unmarked mark]
    all_goals simp only [State.prepare, place]
  case steps =>
    intro s c o op x source copies quarantined again
    have copies_iff : x.hasCopies o = true ↔ copies := x.hasCopies_iff o
    have no_copies_iff : x.hasCopies o = false ↔ ¬ copies := by rw [← copies_iff, Bool.not_eq_true]
    have quarantined_iff : (x.checkedTargets o).any s.quarantined = true ↔ quarantined := s.checked_quarantined_iff x o
    refine ⟨prepLookup_source op, fun half => prepLookup_destination op ((Half.ne_source_iff _).mp half), ?judged,
      fun q => prepChecks_quarantined op (quarantined_iff.mpr q), ?checks, ?cut, prepare_claim op, copies_iff, ?data,
      ?ready⟩
    case judged =>
      intro second p copy good
      have judged := prepJudge_good op copy good
      exact ⟨fun h => judged.trans (if_pos h),
        fun h yes => judged.trans ((if_neg h).trans (if_pos (copies_iff.mpr yes))),
        fun h no => judged.trans ((if_neg h).trans (if_neg fun e => no (copies_iff.mp e)))⟩
    case checks =>
      intro due check
      have checked : x.checkFailure o = if due then check else none := x.checkFailure_eq o
      refine ⟨fun code q isDue fails => ?_, fun q good => ?_⟩
      · exact prepChecks_fails op (fun e => q (quarantined_iff.mp e)) (checked.trans ((if_pos isDue).trans fails))
      · refine prepChecks_passes op (fun e => q (quarantined_iff.mp e)) (checked.trans ?_)
        by_cases isDue : due
        · exact (if_pos isDue).trans (good.resolve_left fun no => no isDue)
        · exact if_neg isDue
    case cut =>
      intro n moves put
      have uses : o.usesChunk = true ↔ moves := o.usesChunk_iff
      refine ⟨fun no => prepCut_chunkless op (Bool.eq_false_iff.mpr fun e => no (uses.mp e)),
        fun yes => prepCut_claims op (uses.mpr yes), ?_⟩
      intro k yes holds v longer u listed anew
      have longer_iff : x.readsAnew o = true ↔ longer := x.readsAnew_iff o
      refine ⟨fun no => prepCut_keeps op (uses.mpr yes) holds fun e => no (longer_iff.mp e),
        fun isLonger inFlight => ?_, fun isLonger none_ => ?_⟩
      · have waits : v.readAgain c k o n = (u, { anew with reread := true }) := readAgain_waits inFlight
        exact prepCut_reads_anew op (uses.mpr yes) holds (longer_iff.mpr isLonger) waits
      · have lists : v.readAgain c k o n = (listed, { anew with reread := false }) := readAgain_lists none_
        exact prepCut_reads_anew op (uses.mpr yes) holds (longer_iff.mpr isLonger) lists
    case data =>
      intro g segment
      have step := prepData_eq op segment
      refine ⟨fun no => step.trans (if_pos no), fun reads => ?_⟩
      simp only [reads, Bool.true_eq_false, if_false] at step
      refine ⟨fun failed => step.trans (if_pos failed), fun notFailed no => ?_, fun arrived yes => ?_,
        fun notFailed notArrived yes => ?_⟩
      · exact step.trans ((if_neg notFailed).trans (if_pos (no_copies_iff.mpr no)))
      · simpa [arrived, x, copies_iff.mpr yes] using step
      · simpa [notFailed, notArrived, x, copies_iff.mpr yes] using step
    case ready =>
      have step := prepReady_eq op
      refine ⟨fun no => step.trans (if_pos (no_copies_iff.mpr no)), ?_⟩
      have go (yes : copies) := step.trans (if_neg fun e => no_copies_iff.mp e yes)
      refine ⟨fun yes mark => (go yes).trans (if_pos mark), fun yes unmarked q => ?_, fun yes unmarked q => ?_⟩
      · exact (go yes).trans ((if_neg (ne_true_of_eq_false unmarked)).trans (if_pos (quarantined_iff.mpr q)))
      · exact (go yes).trans
          ((if_neg (ne_true_of_eq_false unmarked)).trans (if_neg fun e => q (quarantined_iff.mp e)))
  case passes =>
    intro s c o e f running others state place unmarked op chunkless half hit entry good normal passes x t
    have settled : t = _ := settle_passes running others state place unmarked op chunkless half hit entry good normal passes
    rw [settled]
    exact ⟨State.ctx_modCtx_self _ _ _, fun d h => State.ctx_modCtx_ne _ _ h, rfl, rfl⟩

end Sys2Proof.Machine
end

section
/-! PROOFS. What granting and freeing does to the chunks: chunks held stand, and what is new is held with role current by a
context that waited for it. So for the handing of a context's completion entry (R21, R123, R141). -/

namespace Sys2Proof.Machine

/-! ### The contexts that wait for a chunk -/

/-- Every context in the chunk waiter list and in the lock-refused set satisfies `p`. -/
def State.WaitersAll (s : State) (p : CtxId → Prop) : Prop := ∀ m ∈ s.pool.waiters ++ s.pool.refused, p m.context

/-- Between `s` and `t` chunks have been granted, and to contexts that satisfy `p` alone: every chunk held stands, a new
one has role current, and no other context has come to wait. -/
structure State.GrantsOnly (p : CtxId → Prop) (s t : State) : Prop where
  stands : ∀ (j : ChunkId) (h : ChunkHold), s.pool.chunks[j] = some h → t.pool.chunks[j] = some h
  fresh : ∀ (j : ChunkId) (h : ChunkHold), t.pool.chunks[j] = some h →
    s.pool.chunks[j] = some h ∨ (h.role = .current ∧ p h.context)
  waiters : s.WaitersAll p → t.WaitersAll p

theorem State.GrantsOnly.of_chunks {p : CtxId → Prop} {s t : State} (h : t.pool.chunks = s.pool.chunks)
    (w : s.WaitersAll p → t.WaitersAll p) : s.GrantsOnly p t :=
  ⟨fun _ _ e => h ▸ e, fun _ _ e => .inl (h ▸ e), w⟩

theorem State.GrantsOnly.of_pool {p : CtxId → Prop} {s t : State} (h : t.pool = s.pool) : s.GrantsOnly p t :=
  .of_chunks (congrArg Pool.chunks h) fun w => by unfold State.WaitersAll; rw [h]; exact w

/-- A change of the two lists that leaves only contexts that satisfy `p` waiting. -/
theorem State.GrantsOnly.of_lists {p : CtxId → Prop} (s : State) (waiters refused : List Claim)
    (h : ∀ m ∈ waiters ++ refused, p m.context) :
    s.GrantsOnly p { s with pool := { s.pool with waiters, refused } } :=
  .of_chunks rfl fun _ => h

theorem State.GrantsOnly.trans {p : CtxId → Prop} {s t u : State} (a : s.GrantsOnly p t) (b : t.GrantsOnly p u) :
    s.GrantsOnly p u where
  stands j h e := b.stands j h (a.stands j h e)
  fresh j h e := (b.fresh j h e).elim (a.fresh j h) .inr
  waiters w := b.waiters (a.waiters w)

/-! ### Chunks -/

theorem State.chunk_setChunk (s : State) (k j : ChunkId) (h : Option ChunkHold) :
    (s.setChunk k h).pool.chunks[j] = if j = k then h else s.pool.chunks[j] := by
  have e : (s.setChunk k h).pool.chunks[j] = (s.pool.chunks.set k h)[j] := rfl
  rw [e, Fin.getElem_fin, Vector.getElem_set]
  simp only [Fin.ext_iff, eq_comm, Fin.getElem_fin]

/-- A chunk that was free and is given to a context that satisfies `p`, with role current. -/
theorem grantsOnly_setChunk {p : CtxId → Prop} {s : State} {k : ChunkId} (free : s.pool.chunks[k] = none) {h : ChunkHold}
    (role : h.role = .current) (owner : p h.context) : s.GrantsOnly p (s.setChunk k (some h)) where
  stands j g e := by
    have ne : j ≠ k := fun jk => by rw [jk, free] at e; cases e
    rw [State.chunk_setChunk, if_neg ne, e]
  fresh j g e := by
    rw [State.chunk_setChunk] at e
    split at e
    · cases e; exact .inr ⟨role, owner⟩
    · exact .inl e
  waiters w := w

theorem pool_grantChunk (s : State) (c : CtxId) (k : ChunkId) (r : Role) (o : Op) (g : Segment) :
    (s.grantChunk c k r o g).1.pool
      = (s.setChunk k (some { context := c, role := r, targets := o.targets, length := g.len })).pool := by
  unfold State.grantChunk
  dsimp only
  split <;> rfl

theorem grantsOnly_grantFirst {p : CtxId → Prop} {s : State} {c : CtxId} {k : ChunkId} (free : s.pool.chunks[k] = none)
    (owner : p c) : s.GrantsOnly p (s.grantFirst c k) := by
  unfold State.grantFirst
  split
  · next o g _ _ =>
    split
    · exact .of_pool rfl
    · exact (grantsOnly_setChunk free rfl owner).trans (.of_pool (pool_grantChunk s c k .current o g))
  · exact .of_pool rfl

theorem State.freeChunk?_free {s : State} {k : ChunkId} (h : s.freeChunk? = some k) : s.pool.chunks[k] = none := by
  have := List.find?_some h
  simpa using this

theorem grantsOnly_claimFirst {p : CtxId → Prop} {s : State} {c : CtxId} (owner : p c) :
    s.GrantsOnly p (s.claimFirst c) := by
  unfold State.claimFirst
  dsimp only
  have joins (q : Pool) (chunks : q.chunks = s.pool.chunks)
      (lists : ∀ m ∈ q.waiters ++ q.refused, m ∈ s.pool.waiters ++ s.pool.refused ∨ m.context = c) :
      s.GrantsOnly p (State.setPrep { s with pool := q } c .waitChunk) :=
    .of_chunks chunks fun w m hm => (lists m hm).elim (w m) fun e => e ▸ owner
  split
  · exact .of_pool rfl
  · split
    · exact joins _ rfl fun m hm => by
        simp only [List.mem_append, List.mem_singleton] at hm ⊢
        rcases hm with hm | hm | rfl <;> simp [*]
    · split
      · next k _ h => exact grantsOnly_grantFirst (State.freeChunk?_free h) owner
      · exact joins _ rfl fun m hm => by
          simp only [List.mem_append, List.mem_singleton] at hm ⊢
          rcases hm with (hm | rfl) | hm <;> simp [*]

/-- First-chunk claims, one after another, of contexts that satisfy `p`. -/
theorem grantsOnly_claims {p : CtxId → Prop} (l : List CtxId) {s : State} (owners : ∀ c ∈ l, p c) :
    s.GrantsOnly p (l.foldl State.claimFirst s) := by
  induction l generalizing s with
  | nil => exact .of_pool rfl
  | cons c rest ih =>
    exact (grantsOnly_claimFirst (owners c List.mem_cons_self)).trans (ih fun d hd => owners d (List.mem_cons_of_mem c hd))

theorem State.mem_insertByAge (s : State) {c d : CtxId} {l : List CtxId} (h : d ∈ s.insertByAge c l) :
    d = c ∨ d ∈ l := by
  induction l with
  | nil => simpa [State.insertByAge] using h
  | cons e rest ih =>
    unfold State.insertByAge at h
    split at h
    · simpa using h
    · rcases List.mem_cons.mp h with here | later
      · exact .inr (List.mem_cons.mpr (.inl here))
      · exact (ih later).imp_right (List.mem_cons_of_mem e)

theorem State.mem_of_mem_byAge (s : State) {d : CtxId} {l : List CtxId} (h : d ∈ s.byAge l) : d ∈ l := by
  induction l with
  | nil => exact h
  | cons c rest ih => exact List.mem_cons.mpr ((s.mem_insertByAge h).imp_right ih)

/-- Refused members claim again (R120). -/
theorem grantsOnly_reclaim {p : CtxId → Prop} {s : State} (w : s.WaitersAll p) : s.GrantsOnly p s.reclaim := by
  unfold State.reclaim
  dsimp only
  have left : ∀ m ∈ s.pool.waiters ++ s.pool.refused.filter (fun m => !m.targets.all (s.mayClaim m.context)),
      p m.context := fun m hm =>
    w m (List.mem_append.mpr ((List.mem_append.mp hm).imp_right fun h => (List.mem_filter.mp h).1))
  refine (State.GrantsOnly.of_lists s _ _ left).trans (grantsOnly_claims _ fun c hc => ?_)
  obtain ⟨m, hm, rfl⟩ := List.mem_map.mp (s.mem_of_mem_byAge hc)
  exact w m (List.mem_append_right _ (List.mem_filter.mp hm).1)

@[simp] theorem pool_lockVisit (s : State) (kept l : List LockWaiter) : (s.lockVisit kept l).pool = s.pool := by
  induction l generalizing s kept with
  | nil => rfl
  | cons w rest ih =>
    unfold State.lockVisit
    split
    · rw [ih, State.lockGrant, State.modCtx_pool, State.modLocks_pool]
    · rw [ih]

/-- A grant evaluation touches the chunks by the refused members that claim again alone (R105, R110). -/
theorem grantsOnly_lockEvaluate {p : CtxId → Prop} {s : State} (w : s.WaitersAll p) : s.GrantsOnly p s.lockEvaluate := by
  unfold State.lockEvaluate
  dsimp only
  have visited : s.GrantsOnly p (s.lockVisit [] s.locks.waiters) := .of_pool (pool_lockVisit _ _ _)
  split
  · exact .of_pool rfl
  · split
    · exact visited.trans (grantsOnly_reclaim (visited.waiters w))
    · exact visited

/-- A freed chunk is offered to the waiters (R119). -/
theorem grantsOnly_offer {p : CtxId → Prop} {k : ChunkId} (l : List Claim) {s : State} (free : s.pool.chunks[k] = none)
    (offered : ∀ m ∈ l, p m.context) (w : s.WaitersAll p) : s.GrantsOnly p (s.offer k l) := by
  obtain ⟨waiting, refused⟩ := List.forall_mem_append.mp w
  induction l generalizing s with
  | nil => exact .of_lists s [] s.pool.refused (by simpa using refused)
  | cons m rest ih =>
    obtain ⟨hm, hrest⟩ := List.forall_mem_cons.mp offered
    unfold State.offer
    split
    · refine (State.GrantsOnly.of_lists s rest s.pool.refused (List.forall_mem_append.mpr ⟨hrest, refused⟩)).trans ?_
      exact grantsOnly_grantFirst free hm
    · have refused' : ∀ n ∈ s.pool.refused ++ [m], p n.context := by simpa [or_imp, forall_and, hm] using refused
      have w' := List.forall_mem_append.mpr ⟨waiting, refused'⟩
      exact (State.GrantsOnly.of_lists s s.pool.waiters (s.pool.refused ++ [m]) w').trans
        (ih free hrest w' waiting refused')

theorem pool_wake (s : State) (c : CtxId) : (s.wake c).pool = s.pool := by
  unfold State.wake
  split
  · rfl
  · split <;> rfl
  · rfl

/-- A chunk is freed, and may then be granted to one that waited (R119, R122). -/
theorem grantsOnly_freeChunk {p : CtxId → Prop} {s : State} (k : ChunkId) (w : s.WaitersAll p) :
    (s.setChunk k none).GrantsOnly p (s.freeChunk k) := by
  unfold State.freeChunk
  split
  · next free =>
    refine ⟨fun j h e => ?_, fun j h e => .inl ?_, id⟩
    · rw [State.chunk_setChunk] at e
      split at e
      · cases e
      · exact e
    · rw [State.chunk_setChunk, if_neg fun jk => by rw [jk, free] at e; cases e]
      exact e
  · next h _ =>
    have woken : (s.setChunk k none).GrantsOnly p ((s.setChunk k none).wake h.context) := .of_pool (pool_wake _ _)
    have evaluated := woken.trans (grantsOnly_lockEvaluate (woken.waiters w))
    dsimp only
    split
    · next free =>
      have w' := evaluated.waiters w
      exact evaluated.trans (grantsOnly_offer _ (Option.isNone_iff_eq_none.mp free)
        (fun m hm => w' m (List.mem_append_left _ hm)) w')
    · exact evaluated

/-! ### A context's chunks freed (R123) -/

/-- While a context waits for no chunk, its chunks that are freed are no longer its own, and none comes to it. -/
theorem freeChunks_of_no_waiter {c : CtxId} (l : List ChunkId) {s : State} (w : s.WaitersAll (· ≠ c)) (j : ChunkId)
    (h : ChunkHold) (held : (l.foldl State.freeChunk s).pool.chunks[j] = some h) (owner : h.context = c) :
    s.pool.chunks[j] = some h ∧ j ∉ l := by
  induction l generalizing s with
  | nil => exact ⟨held, List.not_mem_nil⟩
  | cons k rest ih =>
    have freed := grantsOnly_freeChunk k w
    obtain ⟨before, notLater⟩ := ih (freed.waiters w) held
    have unheld := (freed.fresh j h before).resolve_right fun ⟨_, other⟩ => other owner
    rw [State.chunk_setChunk] at unheld
    split at unheld
    · cases unheld
    · next ne => exact ⟨unheld, by simp [ne, notLater]⟩

/-- While nobody waits for a lock, an evaluation of the Lock Table leaves chunks and waiters alone. -/
theorem lockEvaluate_of_no_waiter {s : State} (h : s.locks.waiters = []) :
    s.lockEvaluate.pool = s.pool ∧ s.lockEvaluate.locks.waiters = [] := by
  unfold State.lockEvaluate
  split
  · exact ⟨rfl, h⟩
  · simp [h, State.lockVisit]

theorem locks_wake (s : State) (c : CtxId) : (s.wake c).locks = s.locks := by
  unfold State.wake
  split
  · rfl
  · split <;> rfl
  · rfl

/-- While nobody waits for a chunk or a lock, a freed chunk is FREE, and nothing else changes in pool and lock waiters. -/
theorem freeChunk_of_no_waiter {s : State} (k : ChunkId) (hw : s.pool.waiters = []) (hl : s.locks.waiters = []) :
    (∀ j : ChunkId, (s.freeChunk k).pool.chunks[j] = if j = k then none else s.pool.chunks[j])
      ∧ (s.freeChunk k).pool.waiters = [] ∧ (s.freeChunk k).locks.waiters = [] := by
  unfold State.freeChunk
  split
  · next free => exact ⟨fun j => by split <;> simp_all, hw, hl⟩
  · next h _ =>
    obtain ⟨pool, locks⟩ := lockEvaluate_of_no_waiter (s := (s.setChunk k none).wake h.context)
      ((congrArg LockTable.waiters (locks_wake _ _)).trans hl)
    rw [pool_wake] at pool
    have free : (s.setChunk k none).pool.chunks[k] = none := by rw [State.chunk_setChunk, if_pos rfl]
    have nobody : (s.setChunk k none).pool.waiters = [] := hw
    simp only [pool, free, nobody, Option.isNone_none, if_true, State.offer]
    exact ⟨fun j => (congrArg (fun p : Pool => p.chunks[j]) pool).trans (State.chunk_setChunk s k j none), rfl, locks⟩

theorem freeChunks_of_nobody_waits (l : List ChunkId) {s : State} (hw : s.pool.waiters = []) (hl : s.locks.waiters = [])
    (j : ChunkId) : (l.foldl State.freeChunk s).pool.chunks[j] = if j ∈ l then none else s.pool.chunks[j] := by
  induction l generalizing s with
  | nil => simp
  | cons k rest ih =>
    obtain ⟨chunk, hw', hl'⟩ := freeChunk_of_no_waiter k hw hl
    rw [List.foldl_cons, ih hw' hl', chunk]
    by_cases jk : j = k <;> simp [jk]

/-! ### The handing of a completion entry (R21, R141) -/

/-- When a context may hand its entry, in the spec's words (R21, R25). -/
theorem State.mayHand_iff (s : State) (c : CtxId) : s.mayHand c = true ↔
    (s.ctx c).state = .completing ∧ (s.ctx c).handed = false ∧ s.regs.resetting = false
      ∧ ¬ s.ReadsInFlight (·.isDataOf c) ∧ ¬ s.OwesWrite (·.dataOf c) := by
  rw [← State.readInFlight_iff, ← State.writeOwed_iff]
  simp [State.mayHand, and_assoc]

/-- The entry of a context that is not yet free to be handed stands; else it is handed and the chunks are freed. -/
theorem exec_completionHandoff {s : State} {c : CtxId} {q : QueueId} {e : Entry} (queue : (s.ctx c).queue = some q)
    (entry : (s.ctx c).entry = some e) :
    exec (.completionHandoff c) s = if s.mayHand c then .next (s.handContext c q e) else .next s := by
  simp only [exec, execCompletionHandoff, queue, entry]

/-- Settles O28: when a context may hand its entry, and what the freeing of its chunks leaves of it and of the pool. -/
theorem completionHandedWhenQuiet : Obligations.CompletionHandedWhenQuiet := by
  unfold Obligations.CompletionHandedWhenQuiet
  intro s c q e queue entry quiet v w
  have may : s.mayHand c = true ↔ quiet := s.mayHand_iff c
  have pool : v.pool = s.pool := rfl
  refine ⟨may, fun isQuiet => ⟨?handed, ?outside, ?context, fun noClaim k h held owner => ?freed, fun nobody noLock k => ?free⟩,
    fun notQuiet => ?stands⟩
  case handed => exact (exec_completionHandoff queue entry).trans (if_pos (may.mpr isQuiet))
  case outside => rw [outside_settle, foldl_keeps State.outside _ outside_freeChunk, outside_modCtx]
  case context => exact State.ctx_eq_of_lasting (foldl_keeps State.lasting _ lasting_freeChunk _ _) c
  case freed =>
    obtain ⟨before, notFreed⟩ := freeChunks_of_no_waiter (s := v) (s.chunksOf c) noClaim k h held owner
    exact notFreed ((s.mem_chunksOf c k).mpr ⟨h, before, owner⟩)
  case free =>
    rw [freeChunks_of_nobody_waits (s := v) (s.chunksOf c) nobody noLock k, pool]
    simp only [State.mem_chunksOf, Option.any_eq_true, beq_iff_eq]
  case stands => exact (exec_completionHandoff queue entry).trans (if_neg fun h => notQuiet (may.mp h))

end Sys2Proof.Machine
end

section
/-! PROOFS. What the owner does with the end of its access (R13 to R16, R23, R35 to R39, R76, R77, R126): the bytes counted
and the writes handed, a POLL's attempt, a FLOW stop, and the segment that follows. -/

namespace Sys2Proof.Machine

/-! ### Posted writes of an access (R126) -/

theorem handWrite_port (s : State) (w : PostedWrite) : s.handWrite w = { s with port := { s.port with
    issueQueue := (s.handWrite w).port.issueQueue, held := (s.handWrite w).port.held } } := by
  unfold State.handWrite State.modPort
  dsimp only
  split <;> rfl

/-- Writes handed one after another join the posted writes in their order. -/
theorem posted_handWrites (s : State) (l : List PostedWrite) : (l.foldl State.handWrite s).posted = s.posted ++ l := by
  induction l generalizing s with
  | nil => simp
  | cons w rest ih => rw [List.foldl_cons, ih, posted_handWrite, List.append_assoc, List.singleton_append]

/-- Writes handed one after another change nothing but the issue queue and the held writes. -/
theorem handWrites_port (s : State) (l : List PostedWrite) : l.foldl State.handWrite s = { s with port := { s.port with
    issueQueue := (l.foldl State.handWrite s).port.issueQueue, held := (l.foldl State.handWrite s).port.held } } := by
  induction l generalizing s with
  | nil => rfl
  | cons w rest ih =>
    rw [List.foldl_cons]
    refine (ih (s.handWrite w)).trans ?_
    generalize (rest.foldl State.handWrite (s.handWrite w)).port = p
    rw [handWrite_port]

/-- The write of the `n` bytes from byte `i` on of what an access of segment `g` moved, out of chunk `k` (R35, R126). -/
def State.dataWrite (s : State) (c : CtxId) (o : Op) (g : Segment) (k : ChunkId) (i n : Nat) : PostedWrite :=
  .data c k (o.data + BitVec.ofNat 64 (g.base + g.place) + BitVec.ofNat 64 i)
    ((List.range n).map fun j => s.pool.memory.read (256 * k.val + (g.place + i) + j))

/-- The writes of an access: none for no byte, else one, or two where the host range crosses a 4 KiB boundary (R126). -/
theorem handData_eq {s : State} {c : CtxId} {o : Op} {g : Segment} {k : ChunkId} (n : Nat)
    (holds : s.chunkWith c .current = some k) :
    let room := 4096 - (o.data + BitVec.ofNat 64 (g.base + g.place)).toNat % 4096
    s.handData c o g n = (if n = 0 then [] else if n ≤ room then [s.dataWrite c o g k 0 n]
      else [s.dataWrite c o g k 0 room, s.dataWrite c o g k room (n - room)]).foldl State.handWrite s := by
  intro room
  have small : room < 2 ^ 64 := by omega
  have place : (o.data + BitVec.ofNat 64 (g.base + g.place) + BitVec.ofNat 64 room
      - (o.data + BitVec.ofNat 64 (g.base + g.place))).toNat = room := by
    rw [BitVec.add_comm _ (BitVec.ofNat 64 room), BitVec.add_sub_cancel, BitVec.toNat_ofNat, Nat.mod_eq_of_lt small]
  by_cases none_ : n = 0
  · simp [State.handData, holds, none_]
  · have split_eq : pageSplit (o.data + BitVec.ofNat 64 (g.base + g.place)) n = if n ≤ room then
        [(o.data + BitVec.ofNat 64 (g.base + g.place), n)]
      else [(o.data + BitVec.ofNat 64 (g.base + g.place), room),
        (o.data + BitVec.ofNat 64 (g.base + g.place) + BitVec.ofNat 64 room, n - room)] := rfl
    simp only [State.handData, holds, none_, if_false, split_eq]
    split
    · simp [State.dataWrite, Memory.readBytes, chunkAddr]
    · simp only [List.foldl_cons, List.foldl_nil, place]
      simp [State.dataWrite, Memory.readBytes, chunkAddr]
      rfl

theorem ctx_handData (s : State) (c : CtxId) (o : Op) (g : Segment) (n : Nat) (d : CtxId) :
    (s.handData c o g n).ctx d = s.ctx d := by
  unfold State.handData
  split
  · rfl
  · split
    · rfl
    · refine foldl_keeps (State.ctx · d) _ ?_ _ _
      exact fun _ _ => rfl

/-! ### The bytes of an access counted (R13, R76) -/

theorem Op.writesHost_iff (o : Op) : o.writesHost = true ↔ (o.kind = .read ∧ o.ret = false) ∨ o.kind = .drain := by
  simp [Op.writesHost]

/-- Op begun sets, and the bytes of the beats done are counted, but for a POLL and a COPY's source half. -/
def State.accessCounted (s : State) (c : CtxId) (o : Op) (g : Segment) (n : Nat) : State :=
  s.modCtx c fun y => { y with
    begun := true
    offset := if o.kind = .poll ∨ (o.kind = .copy ∧ g.half = .source) then y.offset else y.offset + n }

/-- With the posted writes of a READ to a host buffer or a DRAIN handed. -/
def State.accessWritten (s : State) (c : CtxId) (o : Op) (g : Segment) (n : Nat) : State :=
  if (o.kind = .read ∧ o.ret = false) ∨ o.kind = .drain then (s.accessCounted c o g n).handData c o g n
  else s.accessCounted c o g n

def State.opBegun (s : State) (c : CtxId) : State := s.modCtx c fun x => { x with begun := true }

section
variable {s : State} {c : CtxId} {o : Op} {g : Segment} {n : Nat}

theorem accessCounted_counts (h : ¬ (o.kind = .poll ∨ (o.kind = .copy ∧ g.half = .source))) :
    s.accessCounted c o g n = (s.opBegun c).modCtx c fun x => { x with offset := x.offset + n } := by
  rw [State.opBegun, State.modCtx_modCtx, State.accessCounted]
  simp only [h, if_false]

theorem accessWritten_eq : s.accessWritten c o g n =
    if o.writesHost = true then (s.accessCounted c o g n).handData c o g n else s.accessCounted c o g n := by
  simp only [State.accessWritten, Op.writesHost_iff]

/-- An access that ended short of its segment counts as one that did not. -/
theorem countShort_opBegun : (s.opBegun c).countShort c o g n = s.accessWritten c o g n := by
  rw [accessWritten_eq]
  by_cases h : o.kind = .poll ∨ (o.kind = .copy ∧ g.half = .source)
  · have noWrites : ¬ o.writesHost = true := by rw [o.writesHost_iff]; rcases h with h | ⟨h, -⟩ <;> simp [h]
    simp only [State.countShort, o.isCopy_iff, h, if_true, noWrites, State.accessCounted]
    rfl
  · simp only [State.countShort, o.isCopy_iff, h, if_false, accessCounted_counts h]

/-- All beats of a segment done that counts its bytes: the segment ends well (R13). -/
theorem ownerDone_counts (notPoll : o.kind ≠ .poll) (notHalf : ¬ (o.kind = .copy ∧ g.half = .source)) :
    (s.opBegun c).ownerDone c o g n = (s.accessWritten c o g n).segmentEnds c := by
  have counts : ¬ (o.kind = .poll ∨ (o.kind = .copy ∧ g.half = .source)) := not_or.mpr ⟨notPoll, notHalf⟩
  simp only [State.ownerDone, notPoll, o.isCopy_iff, notHalf, if_false, accessWritten_eq, accessCounted_counts counts]

/-- What of its owner the count of an access and the discard of the staged segment leave alone. -/
theorem accessWritten_keeps :
    let y := ((s.accessWritten c o g n).discardStaged c).ctx c
    y.retries = (s.ctx c).retries ∧ y.prof1 = (s.ctx c).prof1 ∧ y.prof2 = (s.ctx c).prof2
      ∧ y.abortPending = (s.ctx c).abortPending := by
  have counted : (s.accessWritten c o g n).ctx c = (s.accessCounted c o g n).ctx c := by
    unfold State.accessWritten
    split
    · exact ctx_handData _ _ _ _ _ _
    · rfl
  have e := lasting_ctx_discardStaged (s.accessWritten c o g n) c
  rw [counted, State.accessCounted, State.ctx_modCtx_self] at e
  exact ⟨(congrArg Context.retries e :), (congrArg Context.prof1 e :), (congrArg Context.prof2 e :),
    (congrArg Context.abortPending e :)⟩

theorem now_accessWritten : ((s.accessWritten c o g n).discardStaged c).now = s.now := by
  have clock : ((s.accessWritten c o g n).discardStaged c).clock = s.clock := by
    refine (congrArg Outside.clock (outside_discardStaged _ c)).trans ?_
    unfold State.accessWritten
    split
    · exact congrArg Steady.clock (steady_handData _ _ _ _ _)
    · rfl
  simp only [State.now, clock]

end

/-! ### How the owner goes on -/

/-- A change of a context that leaves its abort-pending mark. -/
theorem abortPending_modCtx {s : State} {c : CtxId} {f : Context → Context}
    (h : (f (s.ctx c)).abortPending = (s.ctx c).abortPending) :
    ((s.modCtx c f).ctx c).abortPending = (s.ctx c).abortPending := by
  rw [State.ctx_modCtx_self, h]

theorem ownerPrepares_aborted {s : State} {c : CtxId} (h : (s.ctx c).abortPending = true) :
    s.ownerPrepares c = s.completeAborted c := if_pos h

theorem ownerPrepares_goes_on {s : State} {c : CtxId} (h : (s.ctx c).abortPending = false) :
    s.ownerPrepares c = s.modCtx c Context.sentBack := if_neg (ne_true_of_eq_false h)

theorem ownerWaits_aborted {s : State} {c : CtxId} {k : TimerKind} {due : Nat} (h : (s.ctx c).abortPending = true) :
    s.ownerWaits c k due = s.completeAborted c := if_pos h

theorem ownerWaits_goes_on {s : State} {c : CtxId} {k : TimerKind} {due : Nat} (h : (s.ctx c).abortPending = false) :
    s.ownerWaits c k due = s.modCtx c fun x => x.waiting k due := if_neg (ne_true_of_eq_false h)

/-! ### A POLL's attempt (R16, R38, R39) -/

theorem pollMatches_iff (o : Op) (v : BitVec 32) : pollMatches o v = true ↔
    if o.invert = true then v &&& o.mask ≠ o.matchValue else v &&& o.mask = o.matchValue := by
  unfold pollMatches
  cases o.invert <;> simp

/-- The attempt counted, with its value kept as return data under RETURN, and op begun set. -/
def State.attempted (s : State) (c : CtxId) (o : Op) : State :=
  s.modCtx c fun y => { y with
    begun := true, polls := y.polls + 1, segment := none
    returnData := if o.ret then some y.gathered else y.returnData }

theorem attemptEnds_eq (s : State) (c : CtxId) (o : Op) : (s.opBegun c).attemptEnds c o =
    if pollMatches o ((s.ctx c).gathered.setWidth 32) = true then (s.attempted c o).endOp c none
    else if o.attemptLimit ≤ (s.ctx c).polls + 1 then (s.attempted c o).endOp c (some .pollTimeout)
    else if o.interval = 0 then (s.attempted c o).ownerPrepares c
    else (s.attempted c o).ownerWaits c .poll (s.now + o.interval) := by
  have tried : ((s.opBegun c).modCtx c fun x => { x with
      polls := x.polls + 1, segment := none, returnData := if o.ret then some x.gathered else x.returnData })
        = s.attempted c o := State.modCtx_modCtx s c _ _
  have ctx : (s.attempted c o).ctx c = _ := State.ctx_modCtx_self s c _
  have counted : ((s.attempted c o).ctx c).polls = (s.ctx c).polls + 1 := by rw [ctx]
  have gathered : ((s.attempted c o).ctx c).gathered = (s.ctx c).gathered := by rw [ctx]
  simp only [State.attemptEnds, tried, counted, gathered]
  rfl

/-! ### A FLOW stop (R76, R77) -/

/-- What is left of a segment that FLOW stopped (R77); a POLL repeats its whole attempt. -/
def Segment.restOf (g : Segment) (o : Op) (n : Nat) : Segment :=
  if o.kind = .poll then g else { g with place := g.place + n, len := g.len - n, remainder := true }

theorem ownerFlow_eq {s : State} {c : CtxId} {o : Op} {g : Segment} {n : Nat} :
    let p := (s.ctx c).profileOf g.half
    let stopped := (s.accessWritten c o g n).discardStaged c
    let retried := stopped.modCtx c Context.retried
    (s.opBegun c).ownerFlow c o g n =
      if o.kind = .drain then stopped.endOp c none
      else if p.retryLimit ≤ (s.ctx c).retries then retried.endOp c (some .retryExhausted)
      else (retried.modCtx c fun x => { x with segment := some (g.restOf o n) }).ownerWaits c .flow (s.now + p.baseDelay) := by
  intro p stopped retried
  obtain ⟨retries, prof1, prof2, -⟩ := accessWritten_keeps (s := s) (c := c) (o := o) (g := g) (n := n)
  have ctx : retried.ctx c = (stopped.ctx c).retried := State.ctx_modCtx_self stopped c _
  have raised : (retried.ctx c).retries = (s.ctx c).retries + 1 := by rw [ctx, ← retries]; rfl
  have profile : (retried.ctx c).profileOf g.half = p := by
    rw [ctx]
    simp only [p, Context.profileOf, Context.retried, stopped, prof1, prof2]
  have now : retried.now = s.now := now_accessWritten
  simp only [State.ownerFlow, countShort_opBegun]
  simp only [stopped, retried] at raised profile now ⊢
  simp only [raised, profile, now, Nat.lt_succ_iff, Segment.restOf]
  rfl

/-! ### The chunk of the staged segment (R14) -/

/-- Between `s` and `t` the chunks held with role staged, and their holds, are the same. -/
def State.SameStaged (s t : State) : Prop :=
  ∀ (j : ChunkId) (h : ChunkHold), h.role = .staged → (t.pool.chunks[j] = some h ↔ s.pool.chunks[j] = some h)

theorem State.SameStaged.trans {s t u : State} (a : s.SameStaged t) (b : t.SameStaged u) : s.SameStaged u :=
  fun j h e => (b j h e).trans (a j h e)

/-- The hold of a chunk, if any, has another role than staged. -/
def NotStaged (v : Option ChunkHold) : Prop := ∀ h, v = some h → h.role ≠ .staged

theorem sameStaged_setChunk {s : State} {k : ChunkId} {v : Option ChunkHold} (before : NotStaged s.pool.chunks[k])
    (after : NotStaged v) : s.SameStaged (s.setChunk k v) := by
  intro j h role
  rw [State.chunk_setChunk]
  split
  · next jk =>
    subst jk
    exact ⟨fun e => absurd role (after h e), fun e => absurd role (before h e)⟩
  · rfl

theorem sameStaged_of_grantsOnly {p : CtxId → Prop} {s t : State} (g : s.GrantsOnly p t) : s.SameStaged t :=
  fun j h role => ⟨fun e => (g.fresh j h e).resolve_right fun ⟨current, _⟩ => by simp [role] at current, g.stands j h⟩

theorem sameStaged_freeIfDone {s : State} {k : ChunkId} (h : NotStaged s.pool.chunks[k]) :
    s.SameStaged (s.freeIfDone k) := by
  have freed : s.SameStaged (s.freeChunk k) :=
    (sameStaged_setChunk h (v := none) (by simp [NotStaged])).trans
      (sameStaged_of_grantsOnly (grantsOnly_freeChunk (p := fun _ => True) k fun _ _ => trivial))
  unfold State.freeIfDone
  split
  · exact fun _ _ _ => Iff.rfl
  · split
    · exact freed
    · exact fun _ _ _ => Iff.rfl

theorem sameStaged_endChunk {s : State} {k : ChunkId} (h : NotStaged s.pool.chunks[k]) :
    s.SameStaged (s.endChunk k) := by
  unfold State.endChunk
  split
  · exact fun _ _ _ => Iff.rfl
  · next hold _ =>
    have ended : NotStaged (some { hold with role := .ended }) := by simp [NotStaged]
    let u := s.dropReads (·.isChunk k)
    have marked : s.SameStaged (u.setChunk k (some { hold with role := .ended })) :=
      sameStaged_setChunk (s := u) h ended
    exact marked.trans (sameStaged_freeIfDone (by rw [State.chunk_setChunk, if_pos rfl]; exact ended))

theorem chunkWith_role {s : State} {c : CtxId} {r : Role} {k : ChunkId} (h : s.chunkWith c r = some k) :
    ∃ hold, s.pool.chunks[k] = some hold ∧ hold.role = r := by
  have found := List.find?_some h
  simp only [Option.any_eq_true, Bool.and_eq_true, beq_iff_eq] at found
  obtain ⟨hold, held, -, role⟩ := found
  exact ⟨hold, held, role⟩

/-- The end of the current segment's chunk leaves the staged segment's alone (R13, R14). -/
theorem sameStaged_endRole_current (s : State) (c : CtxId) : s.SameStaged (s.endRole c .current) := by
  unfold State.endRole
  split
  · exact fun _ _ _ => Iff.rfl
  · next k found =>
    obtain ⟨hold, held, role⟩ := chunkWith_role found
    exact sameStaged_endChunk fun h e => by
      obtain rfl : hold = h := Option.some.inj (held.symm.trans e)
      simp [role]

theorem State.SameStaged.chunkWith {s t : State} (h : s.SameStaged t) (c : CtxId) :
    t.chunkWith c .staged = s.chunkWith c .staged := by
  have mono : ∀ {u v : State}, u.SameStaged v → ∀ k : ChunkId,
      (v.pool.chunks[k].any fun h => h.context == c && h.role == .staged) = true →
      (u.pool.chunks[k].any fun h => h.context == c && h.role == .staged) = true := by
    intro u v same k found
    rw [Option.any_eq_true] at found ⊢
    obtain ⟨hold, held, is⟩ := found
    have role : hold.role = .staged := by simp only [Bool.and_eq_true, beq_iff_eq] at is; exact is.2
    exact ⟨hold, (same k hold role).mp held, is⟩
  unfold State.chunkWith
  congr 1
  funext k
  exact Bool.eq_iff_iff.mpr ⟨mono h k, mono (fun j g e => (h j g e).symm) k⟩

theorem State.chunk_setRole (s : State) (k : ChunkId) (r : Role) :
    (s.setRole k r).pool.chunks[k] = s.pool.chunks[k].map fun h => { h with role := r } :=
  Vector.getElem_set_self _

/-! ### A segment that has ended well (R13, R14) -/

/-- A context that prepares its next segment: the staged one, or one still to cut. -/
def Context.nextBegun (x : Context) (g : Option Segment) : Context :=
  { x with state := .preparing, prep := .run .start, segment := g, staged := none }

/-- The next segment begins alike for contexts that differ by their staged segment and outside their lasting parts. -/
theorem nextBegun_of_lasting {x y : Context} (g : Option Segment) (h : y.lasting = x.lasting ∨ y.lasting = x.unstaged.lasting) :
    y.nextBegun g = x.nextBegun g := by
  rcases h with e | e
  · exact (congrArg (Context.nextBegun · g) e :)
  · exact (congrArg (Context.nextBegun · g) e :)

section
variable {s : State} {c : CtxId}

/-- The staged segment becomes current, its chunk with it (R14). -/
theorem nextSegmentBegins_staged {n : Segment} (staged : (s.ctx c).staged = some n) (here : n.base = (s.ctx c).offset) :
    (s.nextSegmentBegins c).ctx c = (s.ctx c).nextBegun (some n)
      ∧ ∀ k h, s.chunkWith c .staged = some k → s.pool.chunks[k] = some h →
          (s.nextSegmentBegins c).pool.chunks[k] = some { h with role := .current } := by
  have kept : (s.ctx c).staged.filter (fun n => n.base == (s.ctx c).offset) = some n := by simp [staged, here]
  simp only [State.nextSegmentBegins, kept, Option.isNone_some, Bool.false_eq_true, if_false]
  refine ⟨?_, fun k h found held => ?_⟩
  · rw [State.ctx_modCtx_self]
    split <;> rfl
  · simp only [found, State.modCtx_pool]
    rw [State.chunk_setRole, held]
    rfl

/-- No staged segment that begins at the byte offset: a new one is to be cut there (R9; log 9). -/
theorem nextSegmentBegins_new (none_ : ∀ n, (s.ctx c).staged = some n → n.base ≠ (s.ctx c).offset) :
    (s.nextSegmentBegins c).ctx c = (s.ctx c).nextBegun none := by
  have kept : (s.ctx c).staged.filter (fun n => n.base == (s.ctx c).offset) = none := by
    rw [Option.filter_eq_none_iff]
    intro n h
    simpa using none_ n h
  simp only [State.nextSegmentBegins, kept, Option.isNone_none, if_true]
  rw [State.ctx_modCtx_self]
  exact nextBegun_of_lasting none (.inr (lasting_ctx_discardStaged s c))

/-- What an ended segment leads to, by the context's own fields, which the end of its chunk leaves alone. -/
theorem segmentEnds_eq {o : Op} (op : (s.ctx c).op = some o) : s.segmentEnds c =
    if o.length ≤ (s.ctx c).offset then
      ((s.endRole c .current).modCtx c fun y => { y with
        returnData := if o.kind = .read ∧ o.ret = true then some y.gathered else y.returnData }).endOp c none
    else if (s.ctx c).abortPending = true then (s.endRole c .current).completeAborted c
    else (s.endRole c .current).nextSegmentBegins c := by
  have e := lasting_ctx (lasting_endRole s c .current) c
  have op' : ((s.endRole c .current).ctx c).op = some o := (congrArg Context.op e).trans op
  have offset : ((s.endRole c .current).ctx c).offset = (s.ctx c).offset := (congrArg Context.offset e :)
  have abort : ((s.endRole c .current).ctx c).abortPending = (s.ctx c).abortPending :=
    (congrArg Context.abortPending e :)
  have ret : (fun y : Context => if o.kind = .read ∧ o.ret = true then { y with returnData := some y.gathered } else y)
      = fun y => { y with returnData := if o.kind = .read ∧ o.ret = true then some y.gathered else y.returnData } := by
    funext y
    split <;> rfl
  simp only [State.segmentEnds, op', offset, abort, ret]

end

/-! ### The end of an access -/

/-- What follows the owner: a pending pulse is found as the access's end left it (R54; log 5). -/
theorem afterOwner_eq (s : State) : s.afterOwner =
    (if s.bus.pulsePending = true then s.lockEvaluate.pulseBegin else s.lockEvaluate).settle := by
  have bus : s.lockEvaluate.bus = s.bus := congrArg Outside.bus (outside_lockEvaluate s)
  simp only [State.afterOwner, bus]

theorem accessEnds_eq {s : State} {a : Access} {how : AccessEnd} (h : how ≠ .holdTimeout) : s.accessEnds a how =
    if s.regs.resetting = true then s.busReleased a how else ((s.busReleased a how).ownerEnd a how).afterOwner := by
  simp only [State.accessEnds, h, if_false]
  rfl

section
variable {s : State} {a : Access} {o : Op} {g : Segment} (op : (s.ctx a.owner).op = some o)
  (segment : (s.ctx a.owner).segment = some g)
include op segment

/-- The op and the segment that an owner handles its access's end with (R13). -/
theorem opBegun_op_segment : ((s.opBegun a.owner).ctx a.owner).op = some o
    ∧ ((s.opBegun a.owner).ctx a.owner).segment = some g := by
  rw [State.opBegun, State.ctx_modCtx_self]
  exact ⟨op, segment⟩

theorem ownerEnd_allDone : s.ownerEnd a .allDone =
    (s.opBegun a.owner).ownerDone a.owner o g (min g.len (a.beatsDone * a.snapshot.width)) := by
  obtain ⟨op', segment'⟩ := opBegun_op_segment op segment
  rw [State.opBegun] at op' segment'
  simp only [State.ownerEnd, op', segment']
  rfl

theorem ownerEnd_flowStop : s.ownerEnd a .flowStop =
    (s.opBegun a.owner).ownerFlow a.owner o g (min g.len (a.beatsDone * a.snapshot.width)) := by
  obtain ⟨op', segment'⟩ := opBegun_op_segment op segment
  rw [State.opBegun] at op' segment'
  simp only [State.ownerEnd, op', segment']
  rfl

end

/-- A COPY's source half done goes on to the destination half, with the bytes read (R15). -/
theorem ownerDone_sourceHalf {s : State} {c : CtxId} {o : Op} {g : Segment} {n : Nat}
    (half : o.kind = .copy ∧ g.half = .source) : (s.opBegun c).ownerDone c o g n =
      (s.modCtx c fun y => { y with
        begun := true
        segment := some { g with half := .destination, place := 0, len := g.place + n, remainder := false }
      }).ownerPrepares c := by
  have notPoll : o.kind ≠ .poll := by simp [half.1]
  refine (if_neg notPoll : (s.opBegun c).ownerDone c o g n = _).trans ?_
  refine (if_pos ⟨o.isCopy_iff.mpr half.1, half.2⟩).trans ?_
  exact congrArg (State.ownerPrepares · c) (State.modCtx_modCtx s c _ _)

/-- Settles O44: the end of an access by way of the owner's own operations, each by its equation. -/
theorem ownerTakesAccessEnd : Obligations.OwnerTakesAccessEnd := by
  unfold Obligations.OwnerTakesAccessEnd
  refine ⟨?reports, ?owner, ?writes, ?segment⟩
  case reports =>
    intro s a how notTimeout
    exact ⟨fun h => (accessEnds_eq notTimeout).trans (if_pos h),
      fun h => (accessEnds_eq notTimeout).trans (if_neg (ne_true_of_eq_false h)), afterOwner_eq s⟩
  case owner =>
    intro s a o g op segment c x p n sourceHalf counted written
    have done := ownerEnd_allDone op segment
    have flow := (ownerEnd_flowStop op segment).trans ownerFlow_eq
    refine ⟨fun notPoll notHalf => done.trans (ownerDone_counts notPoll notHalf), ?half, ?poll, ?flow⟩
    case half =>
      intro isHalf halved
      have step : s.ownerEnd a .allDone = halved.ownerPrepares c := done.trans (ownerDone_sourceHalf isHalf)
      have abort : (halved.ctx c).abortPending = x.abortPending :=
        abortPending_modCtx rfl
      exact ⟨fun h => step.trans (ownerPrepares_aborted (abort.trans h)),
        fun h => step.trans (ownerPrepares_goes_on (abort.trans h))⟩
    case poll =>
      intro isPoll value hit tried
      have step : s.ownerEnd a .allDone = _ :=
        done.trans ((if_pos isPoll : (s.opBegun c).ownerDone c o g n = _).trans (attemptEnds_eq s c o))
      have hits : pollMatches o (x.gathered.setWidth 32) = true ↔ hit := pollMatches_iff o _
      have abort : (tried.ctx c).abortPending = x.abortPending :=
        abortPending_modCtx rfl
      refine ⟨fun h => step.trans (if_pos (hits.mpr h)), fun h limit => ?_, fun h more aborted => ?_,
        fun h more on now => ?_, fun h more on later => ?_⟩
      all_goals refine step.trans ((if_neg fun e => h (hits.mp e)).trans ?_)
      · exact if_pos limit
      all_goals refine (if_neg (Nat.not_le.mpr more)).trans ?_
      · by_cases now : o.interval = 0
        · exact (if_pos now).trans (ownerPrepares_aborted (abort.trans aborted))
        · exact (if_neg now).trans (ownerWaits_aborted (abort.trans aborted))
      · exact (if_pos now).trans (ownerPrepares_goes_on (abort.trans on))
      · exact (if_neg later).trans ((ownerWaits_goes_on (abort.trans on)).trans rfl)
    case flow =>
      intro stopped retried rest
      obtain ⟨-, -, -, kept⟩ := accessWritten_keeps (s := s) (c := c) (o := o) (g := g) (n := n)
      have abort : ((retried.modCtx c fun y => { y with segment := some rest }).ctx c).abortPending = x.abortPending := by
        rw [State.ctx_modCtx_self, State.ctx_modCtx_self]
        exact kept
      refine ⟨fun drain => flow.trans (if_pos drain), fun notDrain limit => ?_, fun notDrain more aborted => ?_,
        fun notDrain more on => ?_⟩
      all_goals refine flow.trans ((if_neg notDrain).trans ?_)
      · exact if_pos limit
      all_goals refine (if_neg (Nat.not_le.mpr more)).trans ?_
      · exact ownerWaits_aborted (abort.trans aborted)
      · exact (ownerWaits_goes_on (abort.trans on)).trans (State.modCtx_modCtx retried c _ _)
  case writes =>
    intro s c o g n k holds first room write t
    have handed : t = _ := handData_eq n holds
    refine ⟨?_, ?_⟩
    · rw [handed]
      exact posted_handWrites s _
    · rw [handed]
      exact handWrites_port s _
  case segment =>
    intro s c o op x v t
    have step : t = _ := segmentEnds_eq op
    refine ⟨fun all => step.trans (if_pos all), fun more aborted => ?_, fun more on => ?_⟩
    · exact step.trans ((if_neg (Nat.not_le.mpr more)).trans (if_pos aborted))
    have next : t = v.nextSegmentBegins c :=
      step.trans ((if_neg (Nat.not_le.mpr more)).trans (if_neg (ne_true_of_eq_false on)))
    have e : (v.ctx c).lasting = x.lasting := lasting_ctx (lasting_endRole s c .current) c
    have staged : (v.ctx c).staged = x.staged := (congrArg Context.staged e :)
    have offset : (v.ctx c).offset = x.offset := (congrArg Context.offset e :)
    have same : s.SameStaged v := sameStaged_endRole_current s c
    refine ⟨outside_segmentEnds s c, fun n is here => ?_, fun none_ => ?_⟩
    · obtain ⟨ctx, chunk⟩ := nextSegmentBegins_staged (staged.trans is) (here.trans offset.symm)
      refine ⟨(congrArg (State.ctx · c) next).trans (ctx.trans (nextBegun_of_lasting _ (.inl e))), fun k h found held => ?_⟩
      obtain ⟨hold, is_hold, role⟩ := chunkWith_role found
      obtain rfl : hold = h := Option.some.inj (is_hold.symm.trans held)
      rw [next]
      exact chunk k hold ((same.chunkWith c).trans found) ((same k hold role).mpr held)
    · have ctx := nextSegmentBegins_new (s := v) (c := c) fun n is => by rw [offset]; exact none_ n (staged.symm.trans is)
      exact (congrArg (State.ctx · c) next).trans (ctx.trans (nextBegun_of_lasting _ (.inl e)))

end Sys2Proof.Machine
end

section
/-! PROOFS. A profile copy judged (R87) and an op checked (R29 to R31): the field ranges of a profile, a list of checks
read as its first failure, what each check asks in the spec's words, and the steps of a preparation that fail the op. -/

namespace Sys2Proof.Machine

/-! ### The judgement of a profile copy (R87) -/

/-- Every field of a profile lies inside its range (R87). -/
def Profile.InRange (p : Profile) : Prop :=
  p.bus.cls.toNat ≤ 1 ∧ p.bus.port.toNat ≤ 2 ∧ ¬ (1 ≤ p.bus.window.toNat ∧ p.bus.window.toNat ≤ 7)
    ∧ p.bus.window.toNat ≤ 20 ∧ p.bus.holdLimit ≠ 0 ∧ p.baseDelay ≠ 0

/-- The window's size codes, 0 and 8 to 20, are those up to 20 outside 1 to 7. -/
theorem window_sizeCode_iff {n : Nat} (w : BitVec n) :
    (w = 0 ∨ (8 ≤ w.toNat ∧ w.toNat ≤ 20)) ↔ ¬ (1 ≤ w.toNat ∧ w.toNat ≤ 7) ∧ w.toNat ≤ 20 := by
  have zero : w = 0 ↔ w.toNat = 0 := BitVec.toNat_inj.symm
  rw [zero]
  omega

theorem judgeProfile_invalid {p : Profile} (h : p.valid = false) : judgeProfile p = .notValid := by
  simp only [judgeProfile, h, Bool.not_false, if_true]

theorem judgeProfile_inRange {p : Profile} (h : p.valid = true) (range : p.InRange) : judgeProfile p = .good := by
  obtain ⟨cls, port, gap, window, hold, delay⟩ := range
  have code := (window_sizeCode_iff _).mpr ⟨gap, window⟩
  simp only [judgeProfile, h, Bool.not_true, Bool.false_eq_true, if_false]
  exact if_pos ⟨cls, port, code, hold, delay⟩

theorem judgeProfile_outOfRange {p : Profile} (h : p.valid = true) (range : ¬ p.InRange) : judgeProfile p = .bad := by
  simp only [judgeProfile, h, Bool.not_true, Bool.false_eq_true, if_false]
  refine if_neg fun ⟨cls, port, code, hold, delay⟩ => range ?_
  obtain ⟨gap, window⟩ := (window_sizeCode_iff _).mp code
  exact ⟨cls, port, gap, window, hold, delay⟩

/-- The three judgements, each by its own condition. -/
theorem judgeProfile_iff (p : Profile) :
    (judgeProfile p = .notValid ↔ p.valid = false) ∧ (judgeProfile p = .bad ↔ p.valid = true ∧ ¬ p.InRange)
      ∧ (judgeProfile p = .good ↔ p.valid = true ∧ p.InRange) := by
  cases valid : p.valid
  case false => simp [judgeProfile_invalid valid]
  case true =>
    by_cases range : p.InRange
    · simp [judgeProfile_inRange valid range, range]
    · simp [judgeProfile_outOfRange valid range, range]

theorem prepJudge_notValid {s : State} {c : CtxId} {o : Op} {second : Bool} {p : Profile} (op : (s.ctx c).op = some o)
    (copy : (s.ctx c).copyOf second = some p) (judged : judgeProfile p = .notValid) :
    s.prepJudge c second = s.endOp c (some .targetAbsent) := by
  simp only [State.prepJudge, op, copy, judged]
  rfl

theorem prepJudge_bad {s : State} {c : CtxId} {o : Op} {second : Bool} {p : Profile} (op : (s.ctx c).op = some o)
    (copy : (s.ctx c).copyOf second = some p) (judged : judgeProfile p = .bad) :
    s.prepJudge c second = s.endOp c (some .targetAbsent) true := by
  simp only [State.prepJudge, op, copy, judged]

/-! ### A list of checks -/

section
variable {a : Bool} {code : Status} {rest : List (Bool × Status)}

theorem firstFailure_holds (h : a = true) : firstFailure ((a, code) :: rest) = firstFailure rest := if_pos h

theorem firstFailure_fails (h : ¬ a = true) : firstFailure ((a, code) :: rest) = some code := if_neg h

theorem firstFailure_goes_on {rest' : List (Bool × Status)} (h : firstFailure rest = firstFailure rest') :
    firstFailure ((a, code) :: rest) = firstFailure ((a, code) :: rest') := by
  simp only [firstFailure, h]

/-- Two checks with one code, one behind the other, are one check. -/
theorem firstFailure_merges {b : Bool} {rest' : List (Bool × Status)} (h : firstFailure rest = firstFailure rest') :
    firstFailure ((a, code) :: (b, code) :: rest) = firstFailure ((a && b, code) :: rest') := by
  cases a
  case false => rfl
  case true => exact firstFailure_goes_on h

end

/-! ### What each check asks (R29) -/

section
variable (o : Op) (m : BitVec 16) (p q : Profile) (off : Nat)

theorem BusProfile.width_eq (b : BusProfile) (h : b.port.toNat ≤ 2) : b.width = 2 ^ b.port.toNat := by
  unfold BusProfile.width
  generalize b.port.toNat = n at h ⊢
  match n, h with
  | 0, _ => rfl
  | 1, _ => rfl
  | 2, _ => rfl

theorem Op.targets_copy {o : Op} (h : o.kind = .copy) : o.targets = [o.target, Fin.ofNat 16 o.target2Byte.toNat] :=
  if_pos (o.isCopy_iff.mpr h)

theorem Op.targets_one {o : Op} (h : o.kind ≠ .copy) : o.targets = [o.target] := if_neg (h ∘ o.isCopy_iff.mp)

/-- A check of the second target binds a COPY alone. -/
theorem Op.secondChecked_iff {o : Op} {a : Bool} : (!o.isCopy || a) = true ↔ (o.kind = .copy → a = true) := by
  rw [← o.isCopy_iff]
  cases o.isCopy <;> simp

/-- Where a transfer at byte offset `off` begins: a MEMORY target's address goes on with it. -/
def BusProfile.startAt (b : BusProfile) (a : TargetAddr) (off : Nat) : Nat :=
  if b.cls = 0 then a.toNat + off else a.toNat

theorem alignedFor_poll {o : Op} (poll : o.kind = .poll) (b : BusProfile) : alignedFor o .source b off = true ↔
    o.length ≤ b.width ∧ o.addr.toNat % o.length = 0 := by
  simp only [alignedFor, poll, if_true, decide_eq_true_eq]

theorem alignedFor_iff {o : Op} (notPoll : o.kind ≠ .poll) (h : Half) (b : BusProfile) : alignedFor o h b off = true ↔
    b.startAt (o.addrOf h) off % b.width = 0 ∧ (o.length - off) % b.width = 0 := by
  simp only [alignedFor, notPoll, if_false, decide_eq_true_eq, BusProfile.isMemory_iff, BusProfile.startAt]

/-- Check 1: every target range of the op ends inside the 24-bit space. -/
def Op.rangeCheck : Bool :=
  decide (o.addr.toNat + o.length ≤ 2 ^ 24) && (!o.isCopy || decide (o.addr2.toNat + o.length ≤ 2 ^ 24))

/-- Check 2, of both targets of a COPY. -/
def Op.alignmentCheck : Bool :=
  alignedFor o .source p.bus off && (!o.isCopy || alignedFor o .destination q.bus off)

/-- Check 3. -/
def Op.classCheck : Bool := o.kind != .drain || p.bus.isStream

/-- Check 4, of both targets of a COPY. -/
def Op.protectCheck : Bool :=
  (!(o.kind == .write || o.kind == .fill) || !p.writeProtect) && (!o.isCopy || !q.writeProtect)

/-- Check 5. -/
def Op.scopeCheck : Bool := decide (m = 0) || o.targets.all (maskHas m)

/-- The op-level checks are five, each with a code of its own. -/
theorem opChecks_eq : opChecks o m p q off = firstFailure [
    (o.rangeCheck, .rangeError), (o.alignmentCheck p q off, .alignmentError), (o.classCheck p, .classMismatch),
    (o.protectCheck p q, .writeProtected), (o.scopeCheck m, .lockScope)] :=
  firstFailure_merges <| firstFailure_merges <| firstFailure_goes_on <| firstFailure_merges rfl

theorem Op.rangeCheck_iff : o.rangeCheck = true ↔
    o.addr.toNat + o.length ≤ 2 ^ 24 ∧ (o.kind = .copy → o.addr2.toNat + o.length ≤ 2 ^ 24) := by
  simp only [Op.rangeCheck, Bool.and_eq_true, Op.secondChecked_iff, decide_eq_true_eq]

theorem Op.alignmentCheck_iff : o.alignmentCheck p q off = true ↔
    if o.kind = .poll then o.length ≤ p.bus.width ∧ o.addr.toNat % o.length = 0
    else p.bus.startAt o.addr off % p.bus.width = 0 ∧ (o.length - off) % p.bus.width = 0
      ∧ (o.kind = .copy → q.bus.startAt o.addr2 off % q.bus.width = 0 ∧ (o.length - off) % q.bus.width = 0) := by
  rw [Op.alignmentCheck, Bool.and_eq_true, Op.secondChecked_iff]
  by_cases poll : o.kind = .poll
  · have notCopy : o.kind ≠ .copy := by simp [poll]
    rw [if_pos poll, alignedFor_poll off poll]
    exact and_iff_left fun copy => absurd copy notCopy
  · rw [if_neg poll, alignedFor_iff off poll, alignedFor_iff off poll, and_assoc]
    rfl

theorem Op.classCheck_iff : o.classCheck p = true ↔ (o.kind = .drain → p.bus.cls = 1) := by
  simp [Op.classCheck, BusProfile.isStream, Decidable.imp_iff_not_or]

theorem Op.protectCheck_iff : o.protectCheck p q = true ↔
    (o.kind = .write ∨ o.kind = .fill → p.writeProtect = false) ∧ (o.kind = .copy → q.writeProtect = false) := by
  rw [Op.protectCheck, Bool.and_eq_true, Op.secondChecked_iff]
  simp only [Bool.or_eq_true, Bool.not_eq_true', Bool.or_eq_false_iff, beq_eq_false_iff_ne, Decidable.imp_iff_not_or,
    not_or, ne_eq]

theorem Op.scopeCheck_iff : o.scopeCheck m = true ↔ m = 0 ∨ ∀ t ∈ o.targets, m.getLsbD t.val = true := by
  simp only [Op.scopeCheck, Bool.or_eq_true, decide_eq_true_eq, List.all_eq_true, maskHas]

/-- The repeated checks of a COPY's destination half: alignment, then write protection (R31; log 28). -/
theorem destinationChecks_copy {o : Op} (copy : o.kind = .copy) :
    let aligned := q.bus.startAt o.addr2 off % q.bus.width = 0 ∧ (o.length - off) % q.bus.width = 0
    (¬ aligned → destinationChecks o q off = some .alignmentError)
      ∧ (aligned → q.writeProtect = true → destinationChecks o q off = some .writeProtected)
      ∧ (aligned → q.writeProtect = false → destinationChecks o q off = none) := by
  intro aligned
  have notPoll : o.kind ≠ .poll := by simp [copy]
  have check : alignedFor o .destination q.bus off = true ↔ aligned := alignedFor_iff off notPoll .destination q.bus
  refine ⟨fun h => firstFailure_fails (h ∘ check.mp), fun h protect => ?_, fun h free => ?_⟩
  all_goals refine (firstFailure_holds (check.mpr h)).trans ?_
  · exact firstFailure_fails (by simp [protect])
  · exact firstFailure_holds (by simp [free])

end

/-! ### The failing steps of a source half -/

section
variable {s : State} {c : CtxId} {o : Op}

theorem checked_quarantined_source (half : (s.ctx c).half = .source) :
    ((s.ctx c).checkedTargets o).any s.quarantined = true ↔ ∃ t ∈ o.targets, s.targets[t] ≠ none :=
  (s.checked_quarantined_iff _ o).trans (Iff.of_eq (if_pos half))

/-- At the op's first segment every op-level check is due (R29). -/
theorem checkFailure_first (half : (s.ctx c).half = .source) (fresh : (s.ctx c).begun = false)
    (zero : (s.ctx c).offset = 0) : (s.ctx c).checkFailure o =
      opChecks o (s.ctx c).lockMask ((s.ctx c).profileOf .source) ((s.ctx c).profileOf .destination) 0 := by
  rw [Context.checkFailure_eq, if_pos ((if_pos half).mpr (.inl ⟨fresh, zero⟩)), if_pos half, zero]

end

/-- Settles O18: the judgement by its three cases, the checks by their first failure. -/
theorem profileJudgedAndOpChecked : Obligations.ProfileJudgedAndOpChecked := by
  unfold Obligations.ProfileJudgedAndOpChecked
  refine ⟨judgeProfile_iff, ?judge, ?checks, ?prepares, ?destination⟩
  case judge =>
    intro s c second o p op copy
    exact ⟨prepJudge_notValid op copy, prepJudge_bad op copy⟩
  case checks =>
    intro o m p q off start inRange aligned classFits writable inScope
    have range : o.rangeCheck = true ↔ inRange := o.rangeCheck_iff
    have align : o.alignmentCheck p q off = true ↔ aligned := o.alignmentCheck_iff p q off
    have cls : o.classCheck p = true ↔ classFits := o.classCheck_iff p
    have protect : o.protectCheck p q = true ↔ writable := o.protectCheck_iff p q
    have scope : o.scopeCheck m = true ↔ inScope := o.scopeCheck_iff m
    have checks := opChecks_eq o m p q off
    have afterRange (r : inRange) := checks.trans (firstFailure_holds (range.mpr r))
    have afterAlign (r : inRange) (a : aligned) := (afterRange r).trans (firstFailure_holds (align.mpr a))
    have afterClass (r : inRange) (a : aligned) (k : classFits) := (afterAlign r a).trans (firstFailure_holds (cls.mpr k))
    have afterProtect (r : inRange) (a : aligned) (k : classFits) (w : writable) :=
      (afterClass r a k).trans (firstFailure_holds (protect.mpr w))
    exact ⟨fun fails => checks.trans (firstFailure_fails (fails ∘ range.mp)),
      fun r fails => (afterRange r).trans (firstFailure_fails (fails ∘ align.mp)),
      fun r a fails => (afterAlign r a).trans (firstFailure_fails (fails ∘ cls.mp)),
      fun r a k fails => (afterClass r a k).trans (firstFailure_fails (fails ∘ protect.mp)),
      fun r a k w fails => (afterProtect r a k w).trans (firstFailure_fails (fails ∘ scope.mp)),
      fun r a k w l => (afterProtect r a k w).trans (firstFailure_holds (scope.mpr l))⟩
  case prepares =>
    intro s c o op half
    have asked := checked_quarantined_source (o := o) half
    refine ⟨fun h => prepChecks_quarantined op (asked.mpr h), fun normal fresh zero code fails => ?_⟩
    refine prepChecks_fails op (fun h => ?_) ((checkFailure_first half fresh zero).trans fails)
    obtain ⟨t, touched, quarantined⟩ := asked.mp h
    exact quarantined (normal t touched)
  case destination =>
    intro o q off aligned
    refine ⟨Op.targets_copy, Op.targets_one, fun copy => ?_, fun copy => ?_, fun copy => ?_, q.bus.width_eq⟩
    all_goals obtain ⟨misaligned, protected_, passes⟩ := destinationChecks_copy q off copy
    · exact misaligned
    · exact protected_
    · exact passes

end Sys2Proof.Machine
end

section
/-! PROOFS. The end of an access at a RETRY (R68 to R71): the delay of its timer, and the wait it starts. -/

namespace Sys2Proof.Machine

/-! ### The delay of a retry timer (R71) -/

/-- The doubling stops at the sixth rise after the first, which is the cap of 64 times the base. -/
theorem retryDelay_eq_min (base n : Nat) : retryDelay base n = min (base * 2 ^ (n - 1)) (64 * base) := by
  have capped : 2 ^ min (n - 1) 6 = min (2 ^ (n - 1)) 64 := by
    obtain below | above := Nat.le_total (n - 1) 6
    · have small : 2 ^ (n - 1) ≤ 64 := Nat.pow_le_pow_right (n := 2) (by decide) below
      exact (congrArg (2 ^ ·) (Nat.min_eq_left below)).trans (Nat.min_eq_left small).symm
    · have large : 64 ≤ 2 ^ (n - 1) := Nat.pow_le_pow_right (n := 2) (by decide) above
      exact (congrArg (2 ^ ·) (Nat.min_eq_right above)).trans (Nat.min_eq_right large).symm
  rw [retryDelay, capped, ← Nat.mul_min_mul_left, Nat.mul_comm 64 base]

theorem retryDelay_le_cap (base n : Nat) : retryDelay base n ≤ 64 * base := by
  rw [retryDelay_eq_min]
  exact Nat.min_le_right _ _

/-! ### The wait after a RETRY (R14, R68, R70) -/

/-- The discard of a staged segment does nothing where a context has none and holds no chunk for one. -/
theorem discardStaged_of_none {s : State} {c : CtxId} (none_ : (s.ctx c).staged = none)
    (noChunk : s.chunkWith c .staged = none) : s.discardStaged c = s := by
  have same : (s.modCtx c fun x => { x with staged := none }) = s := by
    refine (State.modCtx_congr (g := id) ?_).trans ?_
    · rw [← none_]; rfl
    · simp [State.modCtx]
  rw [State.discardStaged, same, State.endRole, noChunk]

section
variable {s : State} {c : CtxId} {g : Segment}

/-- A RETRY counted: past the limit the op fails, and within it the owner waits the delay that the count as raised gives
(R70, R71). -/
theorem ownerRetry_eq :
    let p := (s.ctx c).profileOf g.half
    let retried := (s.discardStaged c).modCtx c Context.retried
    s.ownerRetry c g =
      if p.retryLimit ≤ (s.ctx c).retries then retried.endOp c (some .retryExhausted)
      else retried.ownerWaits c .retry (s.now + retryDelay p.baseDelay ((s.ctx c).retries + 1)) := by
  intro p retried
  have kept : (retried.ctx c).lasting = (s.ctx c).unstaged.retried.lasting := by
    rw [State.ctx_modCtx_self]
    exact congrArg Context.retried (lasting_ctx_discardStaged s c)
  have raised : (retried.ctx c).retries = (s.ctx c).retries + 1 := (congrArg Context.retries kept :)
  have profile : (retried.ctx c).profileOf g.half = p := (congrArg (Context.profileOf · g.half) kept :)
  have clock : retried.clock = s.clock := (congrArg Outside.clock (outside_discardStaged s c) :)
  simp only [State.ownerRetry, State.failOp]
  simp only [retried] at raised profile clock ⊢
  simp only [raised, profile, State.now, clock, Nat.lt_succ_iff]

theorem ownerRetry_waits (none_ : (s.ctx c).staged = none) (noChunk : s.chunkWith c .staged = none)
    (unmarked : (s.ctx c).abortPending = false)
    (within : (s.ctx c).retries + 1 ≤ ((s.ctx c).profileOf g.half).retryLimit) :
    s.ownerRetry c g = s.modCtx c fun x => x.retried.waiting .retry
      (s.now + retryDelay ((s.ctx c).profileOf g.half).baseDelay ((s.ctx c).retries + 1)) := by
  have stillUnmarked : ((s.modCtx c Context.retried).ctx c).abortPending = false := (abortPending_modCtx rfl).trans unmarked
  rw [ownerRetry_eq, if_neg (Nat.not_le.mpr within), discardStaged_of_none none_ noChunk, ownerWaits_goes_on stillUnmarked,
    State.modCtx_modCtx]

end

/-- Settles O46: the cap by the doubling's own bound, and the wait by what a RETRY within the limit does. -/
theorem retryDelayDoublesToCap : Obligations.RetryDelayDoublesToCap := by
  unfold Obligations.RetryDelayDoublesToCap
  refine ⟨fun b n _ => retryDelay_eq_min b n, fun b n byte => ?_, ?_⟩
  · calc retryDelay b n ≤ 64 * b := retryDelay_le_cap b n
      _ ≤ 16320 := by omega
  · intro s c g none_ noChunk unmarked x p within
    rw [ownerRetry_waits none_ noChunk unmarked within, State.ctx_modCtx_self]
    rfl

end Sys2Proof.Machine
end

section
/-! PROOFS. What the Transaction Engine, the Staging Pool and the Lock Table leave alone, once for every view of the state; and
the contexts that the end of another's op leaves alone. -/

namespace Sys2Proof.Machine

/-! ### Views that the engine keeps -/

/-- A view of the state that no change of a context, of the chunks and their waiters, of the locks or of the data mover's list
alters. Every operation of the Transaction Engine but a lookup is made of these changes. -/
structure EngineKeeps {β : Type} (p : State → β) : Prop where
  modCtx : ∀ (s : State) (c : CtxId) (f : Context → Context), p (s.modCtx c f) = p s
  modPool : ∀ (s : State) (f : Pool → Pool), (f s.pool).memory = s.pool.memory → p (s.modPool f) = p s
  modLocks : ∀ (s : State) (f : LockTable → LockTable), p (s.modLocks f) = p s
  modMover : ∀ (s : State) (f : List ReadReq → List ReadReq),
    p (s.modPort fun h => { h with moverReads := f h.moverReads }) = p s

namespace EngineKeeps
variable {β : Type} {p : State → β} (v : EngineKeeps p)
include v

theorem setPrep (s : State) (c : CtxId) (x : Prep) : p (s.setPrep c x) = p s := v.modCtx s c _

theorem setChunk (s : State) (k : ChunkId) (h : Option ChunkHold) : p (s.setChunk k h) = p s := v.modPool s _ rfl

theorem dropReads (s : State) (q : ReadRef → Bool) : p (s.dropReads q) = p s := v.modMover s _

theorem listReads (s : State) (c : CtxId) (k : ChunkId) (o : Op) (g : Segment) : p (s.listReads c k o g) = p s :=
  v.modMover s (· ++ segmentReads c k o g)

theorem leavePool (s : State) (c : CtxId) : p (s.leavePool c) = p s := v.modPool s _ rfl

theorem grantChunk (s : State) (c : CtxId) (k : ChunkId) (r : Role) (o : Op) (g : Segment) :
    p (s.grantChunk c k r o g).1 = p s := by
  unfold State.grantChunk
  dsimp only
  split
  · exact (v.listReads ..).trans (v.setChunk ..)
  · exact v.setChunk ..

theorem grantFirst (s : State) (c : CtxId) (k : ChunkId) : p (s.grantFirst c k) = p s := by
  unfold State.grantFirst
  split
  · split
    · rfl
    · exact (v.modCtx ..).trans (v.grantChunk ..)
  · rfl

theorem claimFirst (s : State) (c : CtxId) : p (s.claimFirst c) = p s := by
  unfold State.claimFirst
  dsimp only
  split
  · exact v.setPrep ..
  · split
    · exact (v.setPrep ..).trans (v.modPool _ _ rfl)
    · split
      · exact v.grantFirst ..
      · exact (v.setPrep ..).trans (v.modPool _ _ rfl)

theorem reclaim (s : State) : p s.reclaim = p s :=
  (foldl_keeps p _ v.claimFirst _ _).trans (v.modPool _ _ rfl)

theorem lockGrant (s : State) (w : LockWaiter) : p (s.lockGrant w) = p s := (v.modCtx ..).trans (v.modLocks ..)

theorem lockVisit (s : State) (kept l : List LockWaiter) : p (s.lockVisit kept l) = p s := by
  induction l generalizing s kept with
  | nil => exact v.modLocks ..
  | cons w rest ih =>
    unfold State.lockVisit
    split
    · exact (ih ..).trans (v.lockGrant ..)
    · exact ih ..

theorem lockEvaluate (s : State) : p s.lockEvaluate = p s := by
  unfold State.lockEvaluate
  dsimp only
  split
  · rfl
  · split
    · exact (v.reclaim _).trans (v.lockVisit ..)
    · exact v.lockVisit ..

theorem offer (s : State) (k : ChunkId) (l : List Claim) : p (s.offer k l) = p s := by
  induction l generalizing s with
  | nil => exact v.modPool _ _ rfl
  | cons m rest ih =>
    unfold State.offer
    split
    · exact (v.grantFirst ..).trans (v.modPool _ _ rfl)
    · exact (ih _).trans (v.modPool _ _ rfl)

theorem wake (s : State) (c : CtxId) : p (s.wake c) = p s := by
  unfold State.wake
  split
  · exact v.setPrep ..
  · split
    · exact v.setPrep ..
    · rfl
  · rfl

theorem freeChunk (s : State) (k : ChunkId) : p (s.freeChunk k) = p s := by
  unfold State.freeChunk
  split
  · rfl
  · next h _ =>
    have evaluated : p ((s.setChunk k none).wake h.context).lockEvaluate = p s :=
      (v.lockEvaluate _).trans ((v.wake ..).trans (v.setChunk ..))
    dsimp only
    split
    · exact (v.offer ..).trans evaluated
    · exact evaluated

theorem freeIfDone (s : State) (k : ChunkId) : p (s.freeIfDone k) = p s := by
  unfold State.freeIfDone
  split
  · rfl
  · split
    · exact v.freeChunk ..
    · rfl

theorem endChunk (s : State) (k : ChunkId) : p (s.endChunk k) = p s := by
  unfold State.endChunk
  split
  · rfl
  · exact (v.freeIfDone ..).trans ((v.setChunk ..).trans (v.dropReads ..))

theorem endRole (s : State) (c : CtxId) (r : Role) : p (s.endRole c r) = p s := by
  unfold State.endRole
  split
  · rfl
  · exact v.endChunk ..

theorem complete (s : State) (c : CtxId) (status : Status) (first : Option Status) :
    p (s.complete c status first) = p s :=
  (v.modCtx ..).trans ((v.leavePool ..).trans (v.dropReads ..))

theorem completeAborted (s : State) (c : CtxId) : p (s.completeAborted c) = p s := v.complete ..

theorem finishAbort (s : State) (c : CtxId) : p (s.finishAbort c) = p s := by
  unfold State.finishAbort
  split
  · exact v.setPrep ..
  · exact v.completeAborted ..

theorem nextOp (s : State) (c : CtxId) : p (s.nextOp c) = p s := by
  unfold State.nextOp
  dsimp only
  split
  · exact v.modCtx ..
  · split
    · exact v.complete ..
    · exact v.complete ..

theorem opClosed (s : State) (c : CtxId) (failure : Option Status) (bad : Bool) : p (s.opClosed c failure bad) = p s :=
  (v.endRole ..).trans ((v.endRole ..).trans ((v.modCtx ..).trans (v.modCtx ..)))

theorem endOp (s : State) (c : CtxId) (failure : Option Status) (bad : Bool) : p (s.endOp c failure bad) = p s := by
  rw [← v.opClosed s c failure bad]
  unfold State.endOp
  dsimp only
  split
  · exact v.completeAborted ..
  · split
    · split
      · exact v.nextOp ..
      · exact v.complete ..
    · exact v.nextOp ..

theorem failOp (s : State) (c : CtxId) (code : Status) : p (s.failOp c code) = p s := v.endOp ..

theorem resetFails (s : State) (c : CtxId) : p (s.resetFails c) = p s := by
  unfold State.resetFails
  dsimp only
  split
  · exact (v.setPrep ..).trans (v.dropReads ..)
  · exact (v.failOp ..).trans (v.dropReads ..)

theorem prepReady (s : State) (c : CtxId) : p (s.prepReady c) = p s := by
  unfold State.prepReady
  dsimp only
  repeat' split
  · rfl
  · exact v.setPrep ..
  · exact v.resetFails ..
  · exact v.failOp ..
  · exact v.modCtx ..

theorem prepData (s : State) (c : CtxId) : p (s.prepData c) = p s := by
  unfold State.prepData
  dsimp only
  repeat' split
  · exact v.prepReady ..
  · exact v.failOp ..
  · exact v.setPrep ..
  · exact v.prepReady ..
  · exact v.setPrep ..
  · rfl

theorem readAgain (s : State) (c : CtxId) (k : ChunkId) (o : Op) (g : Segment) : p (s.readAgain c k o g).1 = p s := by
  unfold State.readAgain
  dsimp only
  split
  · exact v.dropReads s (·.isChunk k)
  · exact (v.listReads ..).trans (v.dropReads ..)

theorem prepCut (s : State) (c : CtxId) : p (s.prepCut c) = p s := by
  unfold State.prepCut
  dsimp only
  split
  · rfl
  · split
    · exact (v.prepReady ..).trans (v.modCtx ..)
    · split
      · exact (v.claimFirst ..).trans (v.modCtx ..)
      · refine (v.prepData ..).trans ((v.modCtx ..).trans ?_)
        split
        · exact (v.readAgain ..).trans (v.setChunk ..)
        · exact v.setChunk ..

theorem prepChecks (s : State) (c : CtxId) : p (s.prepChecks c) = p s := by
  unfold State.prepChecks
  dsimp only
  repeat' split
  · rfl
  · exact v.failOp ..
  · exact v.failOp ..
  · exact (v.prepCut ..).trans (v.modCtx ..)

theorem prepClaim (s : State) (c : CtxId) : p (s.prepClaim c) = p s := by
  unfold State.prepClaim
  repeat' split
  · rfl
  · exact v.claimFirst ..
  · exact v.setPrep ..

/-! A view that a lookup keeps as well is kept by every preparation. -/

variable (look : ∀ (s : State) (c : CtxId) (t : TargetId) (second : Bool), p (s.lookup c t second) = p s)
include look

theorem prepJudge (s : State) (c : CtxId) (second : Bool) : p (s.prepJudge c second) = p s := by
  unfold State.prepJudge
  dsimp only
  split
  · split
    · exact v.failOp ..
    · exact v.endOp ..
    · repeat' split
      · exact look ..
      · exact v.setPrep ..
      · exact v.prepChecks ..
  · exact v.setPrep ..

theorem prepLookup (s : State) (c : CtxId) : p (s.prepLookup c) = p s := by
  unfold State.prepLookup
  dsimp only
  repeat' split
  · rfl
  · exact (look ..).trans (v.modCtx ..)
  · exact (look ..).trans (v.modCtx ..)

theorem prepStart (s : State) (c : CtxId) : p (s.prepStart c) = p s := by
  unfold State.prepStart
  split
  · exact v.resetFails ..
  · exact v.prepLookup look ..

theorem prepare (s : State) (c : CtxId) : p (s.prepare c) = p s := by
  unfold State.prepare
  split
  · exact v.prepStart look ..
  · exact v.prepLookup look ..
  · exact v.prepJudge look ..
  · exact v.prepClaim ..
  · exact v.prepData ..
  · rfl

theorem settle (s : State) : p s.settle = p s := by
  have runs : ∀ (n : Nat) (u : State), p (u.settleFor n) = p u := by
    intro n
    induction n with
    | zero => exact fun _ => rfl
    | succ n ih =>
      intro u
      unfold State.settleFor
      split
      · rfl
      · exact (ih _).trans (v.prepare look ..)
  unfold State.settle
  split
  · rfl
  · exact runs ..

end EngineKeeps

/-! ### Contexts that an operation on another leaves alone -/

/-- A fold keeps what the step of each member of its list keeps. -/
theorem foldl_keeps_on {α β : Type} (p : State → β) (f : State → α → State) {l : List α}
    (h : ∀ a ∈ l, ∀ s, p (f s a) = p s) (s : State) : p (l.foldl f s) = p s :=
  List.foldlRecOn (motive := fun t => p t = p s) l f rfl fun t ih a ha => (h a ha t).trans ih

section
variable {c d : CtxId} (other : d ≠ c)
include other

theorem ctx_complete_ne (s : State) (status : Status) (first : Option Status) :
    (s.complete c status first).ctx d = s.ctx d :=
  State.ctx_modCtx_ne _ _ other

theorem ctx_finishAbort_ne (s : State) : (s.finishAbort c).ctx d = s.ctx d := by
  unfold State.finishAbort
  split
  · exact State.ctx_modCtx_ne _ _ other
  · exact ctx_complete_ne other ..

theorem lasting_ctx_opClosed_ne (s : State) (failure : Option Status) (bad : Bool) :
    ((s.opClosed c failure bad).ctx d).lasting = (s.ctx d).lasting := by
  rw [State.opClosed, lasting_ctx (lasting_endRole _ _ _), State.discardStaged, lasting_ctx (lasting_endRole _ _ _),
    State.ctx_modCtx_ne _ _ other, State.ctx_modCtx_ne _ _ other]

theorem ctx_nextOp_ne (s : State) : (s.nextOp c).ctx d = s.ctx d := by
  unfold State.nextOp
  dsimp only
  split
  · exact State.ctx_modCtx_ne _ _ other
  · split
    · exact ctx_complete_ne other ..
    · exact ctx_complete_ne other ..

/-- The end of an op frees chunks, which may let another context go on but changes no lasting part of it (R18, R119). -/
theorem lasting_ctx_endOp_ne (s : State) (failure : Option Status) (bad : Bool) :
    ((s.endOp c failure bad).ctx d).lasting = (s.ctx d).lasting := by
  rw [← lasting_ctx_opClosed_ne other s failure bad]
  unfold State.endOp
  dsimp only
  split
  · exact congrArg Context.lasting (ctx_complete_ne other ..)
  · split
    · split
      · exact congrArg Context.lasting (ctx_nextOp_ne other _)
      · exact congrArg Context.lasting (ctx_complete_ne other ..)
    · exact congrArg Context.lasting (ctx_nextOp_ne other _)

end

end Sys2Proof.Machine
end

section
/-! PROOFS. The Profile Cache: lookups, the recency order, fills, and the end of a profile load (R90 to R96). -/

namespace Sys2Proof.Machine

/-! ### Lookups, the recency order and fills (R90 to R94) -/

/-- The Profile Cache with the reads its loader has listed (R88, R89). -/
def State.loader (s : State) : ProfileCache × List ReadReq := (s.cache, s.port.loaderReads)

theorem engineKeeps_loader : EngineKeeps State.loader :=
  ⟨fun _ _ _ => rfl, fun _ _ _ => rfl, fun _ _ => rfl, fun _ _ => rfl⟩

/-- The cache's entries, apart from their order. -/
def State.entries (s : State) : Vector (Option CacheEntry) 4 := s.cache.entries

theorem engineKeeps_entries : EngineKeeps State.entries :=
  ⟨fun _ _ _ => rfl, fun _ _ _ => rfl, fun _ _ => rfl, fun _ _ => rfl⟩

section
variable {s : State} {c : CtxId} {t : TargetId} {second : Bool}

theorem lookup_hits {e : EntryId} {f : CacheEntry} (hit : s.cached t = some e) (entry : s.cache.entries[e] = some f) :
    s.lookup c t second =
      (s.touch e).modCtx c fun x => { x.withProfile second f.profile with prep := .run (.judge second) } := by
  simp only [State.lookup, hit, entry]

theorem lookup_misses (miss : s.cached t = none) : s.lookup c t second = (s.joinRow c t).setPrep c (.waitProfile second) := by
  simp only [State.lookup, miss]

/-- A copy taken, field by field. -/
theorem Context.withProfile_eq (x : Context) (second : Bool) (p : Profile) : x.withProfile second p = { x with
    prof1 := if second then x.prof1 else some p, prof2 := if second then some p else x.prof2 } := by
  cases second <;> rfl

/-- A lookup fills and empties no entry (R91, R92). -/
theorem entries_lookup (s : State) (c : CtxId) (t : TargetId) (second : Bool) :
    (s.lookup c t second).entries = s.entries := by
  unfold State.lookup State.joinRow
  repeat' split
  all_goals rfl

theorem entries_settle (s : State) : s.settle.entries = s.entries := engineKeeps_entries.settle entries_lookup s

theorem cache_windowInvalidate (s : State) (t : TargetId) : (s.windowInvalidate t).cache = s.cache := by
  unfold State.windowInvalidate
  dsimp only
  repeat' split
  all_goals rfl

theorem recency_invalidate (s : State) (t : TargetId) : (s.invalidate t).cache.recency =
    s.cache.recency.filter fun e => !(s.cache.entries[e]).any fun f => f.target == t :=
  congrArg ProfileCache.recency (cache_windowInvalidate _ t)

/-- A fill changes the entry chosen and the order, and lists no read (R93, R94). -/
theorem loader_fill (s : State) (t : TargetId) (p : Profile) : (s.fill t p).loader =
    ({ s.cache with
        entries := s.cache.entries.set s.fillPlace (some { target := t, profile := p })
        recency := s.fillPlace :: s.cache.recency.filter fun e => e != s.fillPlace }, s.port.loaderReads) := by
  unfold State.fill
  dsimp only
  split <;> rfl

theorem ctx_modCache (s : State) (f : ProfileCache → ProfileCache) (c : CtxId) : (s.modCache f).ctx c = s.ctx c := rfl

/-- An eviction marks the contexts whose op names the target (R94). -/
theorem Context.evicted_eq (t : TargetId) (x : Context) :
    x.evicted t = { x with recheck := x.recheck || x.names t } := by
  unfold Context.evicted
  split
  · next named => simp [named]
  · next unnamed => simp [unnamed]

/-- A fill marks the contexts whose op names the evicted target (R94). -/
theorem ctx_fill (s : State) (t : TargetId) (p : Profile) (c : CtxId) : (s.fill t p).ctx c = { s.ctx c with
    recheck := (s.ctx c).recheck || (s.cache.entries[s.fillPlace]).any fun old => (s.ctx c).names old.target } := by
  unfold State.fill
  dsimp only
  rw [State.touch, ctx_modCache, ctx_modCache]
  split
  · next old holds => rw [State.mapContexts_ctx, Context.evicted_eq, holds, Option.any_some]
  · next empty => rw [empty, Option.any_none, Bool.or_false]

end

/-! ### Waiters of a load -/

theorem State.insertByAge_perm (s : State) (c : CtxId) (l : List CtxId) : (s.insertByAge c l).Perm (c :: l) := by
  induction l with
  | nil => exact .refl _
  | cons d rest ih =>
    unfold State.insertByAge
    split
    · exact .refl _
    · exact (ih.cons d).trans (.swap c d rest)

/-- The order of ages only orders. -/
theorem State.byAge_perm (s : State) (l : List CtxId) : (s.byAge l).Perm l := by
  induction l with
  | nil => exact .refl _
  | cons c rest ih => exact (s.insertByAge_perm c _).trans (ih.cons c)

/-- The waiters of a load that satisfy `p`, oldest first. -/
def State.waitersWhere (s : State) (t : TargetId) (p : Context → Bool) : List CtxId :=
  (s.byAge (s.cache.rows[t]).waiters).filter fun c => p (s.ctx c)

/-- The waiters of a load without an abort pending. -/
def State.liveWaiters (s : State) (t : TargetId) : List CtxId := s.waitersWhere t fun x => !x.abortPending

/-- The waiters of a load with an abort pending. -/
def State.abortedWaiters (s : State) (t : TargetId) : List CtxId := s.waitersWhere t Context.abortPending

theorem State.mem_waitersWhere {s : State} {t : TargetId} {p : Context → Bool} {c : CtxId} :
    c ∈ s.waitersWhere t p ↔ c ∈ (s.cache.rows[t]).waiters ∧ p (s.ctx c) = true := by
  rw [State.waitersWhere, List.mem_filter, (s.byAge_perm _).mem_iff]

theorem State.mem_liveWaiters {s : State} {t : TargetId} {c : CtxId} :
    c ∈ s.liveWaiters t ↔ c ∈ (s.cache.rows[t]).waiters ∧ (s.ctx c).abortPending = false := by
  rw [State.liveWaiters, State.mem_waitersWhere, Bool.not_eq_true']

theorem State.nodup_liveWaiters {s : State} {t : TargetId} (h : (s.cache.rows[t]).waiters.Nodup) :
    (s.liveWaiters t).Nodup :=
  ((s.byAge_perm _).nodup_iff.mpr h).filter _

/-- A load's only waiter, live. -/
theorem State.waiters_of_one {s : State} {t : TargetId} {c : CtxId} (only : (s.cache.rows[t]).waiters = [c])
    (live : (s.ctx c).abortPending = false) : s.liveWaiters t = [c] ∧ s.abortedWaiters t = [] := by
  have alone : s.byAge (s.cache.rows[t]).waiters = [c] := by rw [only]; rfl
  simp only [State.liveWaiters, State.abortedWaiters, State.waitersWhere, alone]
  simp [live]

/-- A waiter served once is served (R93). -/
theorem Context.served_served (p : Profile) (x : Context) : (x.served p).served p = x.served p := by
  cases h : x.prep with
  | waitProfile second => simp only [Context.served, h]
  | _ => simp only [Context.served, h]

theorem Context.served_waiting {x : Context} {second : Bool} (p : Profile) (h : x.prep = .waitProfile second) :
    x.served p = { x.withProfile second p with prep := .run (.judge second) } := by
  simp only [Context.served, h]

/-- Each waiter listed takes its copy. -/
def State.serveAll (s : State) (p : Profile) (l : List CtxId) : State :=
  l.foldl (fun s c => s.modCtx c (Context.served p)) s

theorem loader_serveAll (s : State) (p : Profile) (l : List CtxId) : (s.serveAll p l).loader = s.loader :=
  foldl_keeps State.loader _ (fun _ _ => engineKeeps_loader.modCtx ..) _ _

theorem ctx_serveAll (s : State) (p : Profile) (l : List CtxId) (c : CtxId) :
    (s.serveAll p l).ctx c = if c ∈ l then (s.ctx c).served p else s.ctx c := by
  induction l generalizing s with
  | nil => rfl
  | cons d rest ih =>
    refine (ih (s.modCtx d (Context.served p))).trans ?_
    by_cases same : c = d
    · subst same
      simp only [State.ctx_modCtx_self, Context.served_served, List.mem_cons_self, ite_self, if_true]
    · simp only [State.ctx_modCtx_ne _ _ same, List.mem_cons, same, false_or]

/-- Each waiter listed fails its op. -/
def State.failAll (s : State) (code : Status) (l : List CtxId) : State := l.foldl (fun s c => s.failOp c code) s

theorem loader_failAll (s : State) (code : Status) (l : List CtxId) : (s.failAll code l).loader = s.loader :=
  foldl_keeps State.loader _ (fun _ _ => engineKeeps_loader.failOp ..) _ _

/-- The count of failed ops and the first error of a context, which its op's failure changes (R18). -/
def Context.failures (x : Context) : Nat × Option Status := (x.opsFailed, x.firstError)

theorem failures_failOp (s : State) (c : CtxId) (code : Status) : ((s.failOp c code).ctx c).failures =
    ((s.ctx c).opsFailed + 1, some ((s.ctx c).firstError.getD code)) := by
  have tally := tally_endOp s c (some code) false
  simp only [Context.tally, Prod.mk.injEq] at tally
  obtain ⟨-, -, failed, first, -⟩ := tally
  exact Prod.ext failed first

theorem failures_failOp_ne {s : State} {c d : CtxId} (other : d ≠ c) (code : Status) :
    ((s.failOp c code).ctx d).failures = (s.ctx d).failures :=
  (congrArg Context.failures (lasting_ctx_endOp_ne other s (some code) false) :)

/-- A waiter listed once fails once (R95). -/
theorem failures_failAll {code : Status} {l : List CtxId} {c : CtxId} (once : l.Nodup) (listed : c ∈ l) (s : State) :
    ((s.failAll code l).ctx c).failures = ((s.ctx c).opsFailed + 1, some ((s.ctx c).firstError.getD code)) := by
  induction l generalizing s with
  | nil => exact absurd listed List.not_mem_nil
  | cons d rest ih =>
    obtain ⟨notLater, onceLater⟩ := List.nodup_cons.mp once
    by_cases same : c = d
    · subst same
      rw [← failures_failOp]
      exact foldl_keeps_on (fun s => (s.ctx c).failures) _
        (fun e later u => failures_failOp_ne (fun (h : c = e) => notLater (h ▸ later)) code) _
    · obtain ⟨failed, first⟩ := Prod.mk.inj (failures_failOp_ne (s := s) same code)
      rw [← failed, ← first]
      exact ih onceLater ((List.mem_cons.mp listed).resolve_left same) (s.failOp d code)

/-! ### The end of a load -/

/-- A load's return up to what it brings to its waiters with an abort pending (R93, R95, R96). -/
def State.profileAnswered (s : State) (t : TargetId) (r : Response) : State :=
  if (s.cache.rows[t]).cancelled then
    if (s.liveWaiters t).isEmpty then s.modRow t fun _ => {}
    else (s.modRow t fun _ => { loading := true, cancelled := false, waiters := s.liveWaiters t }).listLoad t
  else
    match r with
    | .data bytes => ((s.modRow t fun _ => {}).fill t (parseProfile bytes)).serveAll (parseProfile bytes) (s.liveWaiters t)
    | .hostError => (s.modRow t fun _ => {}).failAll .profileReadError (s.liveWaiters t)

/-- A load's return with what follows for the waiters with an abort pending (R23), before preparations go on. -/
def State.profileEnded (s : State) (t : TargetId) (r : Response) : State :=
  (s.abortedWaiters t).foldl State.finishAbort (s.profileAnswered t r)

theorem profileReturned_eq (s : State) (t : TargetId) (r : Response) :
    s.profileReturned t r = (s.profileEnded t r).settle := by
  cases r <;> rfl

section
variable {s : State} {t : TargetId} {r : Response} {c : CtxId}

/-- What the waiters that abort do stays out of the cache and the loader's list. -/
theorem loader_profileEnded : (s.profileEnded t r).loader = (s.profileAnswered t r).loader :=
  foldl_keeps State.loader _ engineKeeps_loader.finishAbort _ _

/-- What they do touches no context without an abort pending. -/
theorem ctx_profileEnded (live : (s.ctx c).abortPending = false) :
    (s.profileEnded t r).ctx c = (s.profileAnswered t r).ctx c := by
  refine foldl_keeps_on (State.ctx · c) _ (fun d aborted u => ctx_finishAbort_ne (fun same => ?_) u) _
  have pending := (State.mem_waitersWhere.mp aborted).2
  rw [← same, live] at pending
  cases pending

/-- The Profile Cache with another row for a target. -/
def ProfileCache.withRow (k : ProfileCache) (t : TargetId) (row : FetchRow) : ProfileCache :=
  { k with rows := k.rows.set t row }

theorem ProfileCache.withRow_self (k : ProfileCache) (t : TargetId) (row : FetchRow) : (k.withRow t row).rows[t] = row := by
  simp [ProfileCache.withRow]

theorem ProfileCache.withRow_ne (k : ProfileCache) {t j : TargetId} (row : FetchRow) (other : j ≠ t) :
    (k.withRow t row).rows[j] = k.rows[j] := by
  have places : t.val ≠ j.val := fun e => other (Fin.ext e.symm)
  simp [ProfileCache.withRow, Vector.getElem_set_ne, places]

section cancelled
variable (cancelled : (s.cache.rows[t]).cancelled = true)
include cancelled

theorem profileAnswered_repeats (left : ∃ c, c ∈ s.liveWaiters t) : s.profileAnswered t r =
    (s.modRow t fun _ => { loading := true, cancelled := false, waiters := s.liveWaiters t }).listLoad t := by
  have notEmpty : ¬ (s.liveWaiters t).isEmpty = true := fun h =>
    left.elim fun c hc => List.not_mem_nil (List.isEmpty_iff.mp h ▸ hc)
  exact (if_pos cancelled).trans (if_neg notEmpty)

theorem profileAnswered_drops (noneLeft : ¬ ∃ c, c ∈ s.liveWaiters t) : s.profileAnswered t r = s.modRow t fun _ => {} := by
  have empty : (s.liveWaiters t).isEmpty = true :=
    List.isEmpty_iff.mpr (List.eq_nil_iff_forall_not_mem.mpr (not_exists.mp noneLeft))
  exact (if_pos cancelled).trans (if_pos empty)

/-- With a live waiter left the load is made again for those (R96). -/
theorem loader_profileEnded_repeats (left : ∃ c, c ∈ s.liveWaiters t) : (s.profileEnded t r).loader =
    (s.cache.withRow t { loading := true, cancelled := false, waiters := s.liveWaiters t }, s.port.loaderReads
      ++ [{ ref := .profile t, addr := s.regs.profileTable + BitVec.ofNat 64 (32 * t.val), len := 32 }]) := by
  rw [loader_profileEnded, profileAnswered_repeats cancelled left]
  rfl

/-- With none left the row goes to NONE (R96). -/
theorem loader_profileEnded_drops (noneLeft : ¬ ∃ c, c ∈ s.liveWaiters t) :
    (s.profileEnded t r).loader = (s.cache.withRow t {}, s.port.loaderReads) := by
  rw [loader_profileEnded, profileAnswered_drops cancelled noneLeft]
  rfl

/-- A cancelled load changes its own row alone of the cache (R96). -/
theorem cache_profileEnded_cancelled : ∃ row, (s.profileEnded t r).cache = s.cache.withRow t row := by
  by_cases left : ∃ c, c ∈ s.liveWaiters t
  · exact ⟨_, congrArg Prod.fst (loader_profileEnded_repeats cancelled left)⟩
  · exact ⟨_, congrArg Prod.fst (loader_profileEnded_drops cancelled left)⟩

theorem ctx_profileEnded_cancelled (live : (s.ctx c).abortPending = false) : (s.profileEnded t r).ctx c = s.ctx c := by
  rw [ctx_profileEnded live]
  by_cases left : ∃ c, c ∈ s.liveWaiters t
  · rw [profileAnswered_repeats cancelled left]
    rfl
  · rw [profileAnswered_drops cancelled left]
    rfl

end cancelled

section served
variable (served : (s.cache.rows[t]).cancelled = false)
include served

theorem profileAnswered_fills (bytes : List Byte) : s.profileAnswered t (.data bytes) =
    ((s.modRow t fun _ => {}).fill t (parseProfile bytes)).serveAll (parseProfile bytes) (s.liveWaiters t) :=
  if_neg (ne_true_of_eq_false served)

theorem profileAnswered_fails : s.profileAnswered t .hostError =
    (s.modRow t fun _ => {}).failAll .profileReadError (s.liveWaiters t) :=
  if_neg (ne_true_of_eq_false served)

/-- A profile returned fills the entry chosen, which becomes the most recently used, and its row goes to NONE (R93, R94). -/
theorem loader_profileEnded_data (bytes : List Byte) : (s.profileEnded t (.data bytes)).loader =
    ({ s.cache.withRow t {} with
        entries := s.cache.entries.set s.fillPlace (some { target := t, profile := parseProfile bytes })
        recency := s.fillPlace :: s.cache.recency.filter fun e => e != s.fillPlace }, s.port.loaderReads) := by
  rw [loader_profileEnded, profileAnswered_fills served, loader_serveAll, loader_fill]
  rfl

/-- A host error leaves the entries and their order, and the row goes to NONE (R95). -/
theorem loader_profileEnded_error : (s.profileEnded t .hostError).loader = (s.cache.withRow t {}, s.port.loaderReads) := by
  rw [loader_profileEnded, profileAnswered_fails served, loader_failAll]
  rfl

/-- A live waiter takes its copy, to be judged, and has the mark of an eviction (R93, R94). -/
theorem ctx_profileEnded_data {second : Bool} (waiter : c ∈ s.liveWaiters t) (waits : (s.ctx c).prep = .waitProfile second)
    (bytes : List Byte) : (s.profileEnded t (.data bytes)).ctx c = { s.ctx c with
      prof1 := if second then (s.ctx c).prof1 else some (parseProfile bytes)
      prof2 := if second then some (parseProfile bytes) else (s.ctx c).prof2
      prep := .run (.judge second)
      recheck := (s.ctx c).recheck || (s.cache.entries[s.fillPlace]).any fun old => (s.ctx c).names old.target } := by
  have filled := ctx_fill (s.modRow t fun _ => {}) t (parseProfile bytes) c
  have stillWaits : (((s.modRow t fun _ => {}).fill t (parseProfile bytes)).ctx c).prep = .waitProfile second := by
    rw [filled]
    exact waits
  rw [ctx_profileEnded (State.mem_liveWaiters.mp waiter).2, profileAnswered_fills served, ctx_serveAll, if_pos waiter,
    Context.served_waiting _ stillWaits, Context.withProfile_eq, filled]
  rfl

/-- A live waiter's op fails (R95). -/
theorem failures_profileEnded_error (waiter : c ∈ s.liveWaiters t) (once : (s.cache.rows[t]).waiters.Nodup) :
    ((s.profileEnded t .hostError).ctx c).failures =
      ((s.ctx c).opsFailed + 1, some ((s.ctx c).firstError.getD .profileReadError)) := by
  rw [ctx_profileEnded (State.mem_liveWaiters.mp waiter).2, profileAnswered_fails served]
  exact failures_failAll (State.nodup_liveWaiters once) waiter (s.modRow t fun _ => {})

/-- With one waiter, live, its op's failure is all that follows (R95). -/
theorem profileEnded_error_one (only : (s.cache.rows[t]).waiters = [c]) (live : (s.ctx c).abortPending = false) :
    s.profileEnded t .hostError = (s.modRow t fun _ => {}).endOp c (some .profileReadError) false := by
  obtain ⟨one, noAborts⟩ := State.waiters_of_one only live
  rw [State.profileEnded, noAborts, profileAnswered_fails served, one]
  rfl

end served

/-- Only the target's own row changes at the end of its load. -/
theorem row_profileEnded_ne {j : TargetId} (other : j ≠ t) : (s.profileEnded t r).cache.rows[j] = s.cache.rows[j] := by
  have set_row : ∀ k : ProfileCache, (∃ row, k.rows = (s.cache.withRow t row).rows) → k.rows[j] = s.cache.rows[j] :=
    fun k ⟨row, h⟩ => by rw [h, ProfileCache.withRow_ne _ _ other]
  refine set_row _ ?_
  cases cancelled : (s.cache.rows[t]).cancelled with
  | true =>
    obtain ⟨row, h⟩ := cache_profileEnded_cancelled (r := r) cancelled
    exact ⟨row, congrArg ProfileCache.rows h⟩
  | false =>
    cases r with
    | data bytes => exact ⟨{}, congrArg (·.1.rows) (loader_profileEnded_data cancelled bytes)⟩
    | hostError => exact ⟨{}, congrArg (·.1.rows) (loader_profileEnded_error cancelled)⟩

/-- A profile load whose read is awaited is answered, its tag FREE (R93, R95, R96, R160). -/
theorem exec_profileLoadReturn {i : TagId} {a : HostAddr} (awaited : s.Awaits i { ref := .profile t, addr := a, len := 32 })
    (complete : responseComplete r 32 = true) :
    exec (.profileLoadReturn i r) s = .next ((s.setTag i .free).profileReturned t r) := by
  obtain ⟨inFlight, running⟩ := awaited
  simp [exec, execProfileLoadReturn, State.readReturns, inFlight, ReadRef.isProfile, complete, running, State.handResponse]

end

/-- Settles O35: the end of a load by the state before preparations go on, which touch no entry; the lookups by their two
cases. -/
theorem profileLoadFillsUnlessCancelled : Obligations.ProfileLoadFillsUnlessCancelled := by
  unfold Obligations.ProfileLoadFillsUnlessCancelled
  refine ⟨?fills, ?keeps, ?ends, ?lookups, fun bytes => ?layout⟩
  case fills =>
    intro s i k a bytes awaited whole served
    let u := s.setTag i .free
    have entries : (u.profileReturned k (.data bytes)).entries =
        u.cache.entries.set u.fillPlace (some { target := k, profile := parseProfile bytes }) := by
      rw [profileReturned_eq, entries_settle]
      exact congrArg (·.1.entries) (loader_profileEnded_data (s := u) served bytes)
    refine ⟨_, exec_profileLoadReturn awaited (by simp [responseComplete, whole]), ?_, fun e other => ?_,
      outside_profileReturned _ _ _⟩
    · exact (congrArg (·[u.fillPlace]) entries).trans (Vector.getElem_set_self _)
    · exact (congrArg (·[e]) entries).trans (Vector.getElem_set_ne _ _ fun h => other (Fin.ext h.symm))
  case keeps =>
    intro s i k a r awaited complete cancelled
    obtain ⟨row, cache⟩ := cache_profileEnded_cancelled (s := s.setTag i .free) (r := r) cancelled
    refine ⟨_, exec_profileLoadReturn awaited complete, ?_, outside_profileReturned _ _ _⟩
    rw [profileReturned_eq]
    exact (entries_settle _).trans (congrArg ProfileCache.entries cache :)
  case ends =>
    intro s i k a r awaited complete row live
    let u := s.setTag i .free
    have waiter {c : CtxId} : c ∈ u.liveWaiters k ↔ live c := State.mem_liveWaiters
    refine ⟨u.profileEnded k r, (exec_profileLoadReturn awaited complete).trans (congrArg _ (profileReturned_eq ..)),
      fun j other => row_profileEnded_ne other, fun cancelled => ?cancelled, fun served => ?served⟩
    case cancelled =>
      obtain ⟨_, cache⟩ := cache_profileEnded_cancelled (s := u) (r := r) cancelled
      refine ⟨(congrArg ProfileCache.recency cache :), fun c h => ctx_profileEnded_cancelled (s := u) cancelled h.2,
        fun ⟨c, h⟩ => ?_, fun noneLive => ?_⟩
      · have loader := loader_profileEnded_repeats (s := u) (r := r) cancelled ⟨c, waiter.mpr h⟩
        have newRow := (congrArg (·.1.rows[k]) loader).trans (u.cache.withRow_self k _)
        refine ⟨congrArg FetchRow.loading newRow, congrArg FetchRow.cancelled newRow, fun d => ?_, congrArg Prod.snd loader⟩
        exact (congrArg (d ∈ FetchRow.waiters ·) newRow).to_iff.trans waiter
      · have loader := loader_profileEnded_drops (s := u) (r := r) cancelled fun ⟨c, h⟩ => noneLive ⟨c, waiter.mp h⟩
        exact ⟨(congrArg (·.1.rows[k]) loader).trans (u.cache.withRow_self k {}), congrArg Prod.snd loader⟩
    case served =>
      cases r with
      | hostError =>
        have loader := loader_profileEnded_error (s := u) served
        refine ⟨(congrArg (·.1.rows[k]) loader).trans (u.cache.withRow_self k {}), congrArg Prod.snd loader,
          fun _ => ⟨?_, fun once c h => ?_, fun c only h => profileEnded_error_one (s := u) served only h.2⟩,
          fun bytes no => by cases no⟩
        · have cache : (u.profileEnded k .hostError).cache = u.cache.withRow k {} := congrArg Prod.fst loader
          rw [cache]
          rfl
        · exact Prod.mk.inj (failures_profileEnded_error (s := u) served (waiter.mpr h) once)
      | data bytes =>
        have loader := loader_profileEnded_data (s := u) served bytes
        refine ⟨(congrArg (·.1.rows[k]) loader).trans (u.cache.withRow_self k {}), congrArg Prod.snd loader,
          (nomatch ·), fun bytes' same => ?_⟩
        cases same
        exact ⟨congrArg (·.1.recency) loader, fun c second h waits =>
          ctx_profileEnded_data (s := u) served (waiter.mpr h) waits bytes⟩
  case lookups =>
    intro s c k second
    refine ⟨fun e f hit entry => ?_, fun miss loading => ?_, fun miss idle => ?_, recency_invalidate s k⟩
    · rw [lookup_hits hit entry]
      exact State.modCtx_congr (by rw [Context.withProfile_eq])
    · rw [lookup_misses miss, State.joinRow, if_pos loading]
    · rw [lookup_misses miss, State.joinRow, if_neg (ne_true_of_eq_false idle)]
      rfl
  case layout =>
    have nibbles (n : Nat) : n % 16 + 16 * (n / 16) = n := Nat.mod_add_div n 16
    have nibble (n : Nat) : n % 16 < 16 := Nat.mod_lt n (by decide)
    exact ⟨rfl, rfl, rfl, rfl, rfl, rfl, rfl, nibbles _, nibble _, nibbles _, nibble _, rfl, rfl, rfl⟩

end Sys2Proof.Machine
end

section
/-! PROOFS. The Lock Table: the four conditions of a grant (R106, R107), what a grant does to the rows, and the operations of
the other blocks that leave the Lock Table as it is. -/

namespace Sys2Proof.Machine

/-! ### The conditions of a grant (R106, R107) -/

theorem State.foreignChunk_eq_false_iff (s : State) (c : CtxId) (t : TargetId) : s.foreignChunk c t = false ↔
    ∀ (k : ChunkId) (h : ChunkHold), s.pool.chunks[k] = some h → t ∈ h.targets → h.context = c := by
  simp only [State.foreignChunk, List.any_eq_false, List.mem_finRange, forall_const, Option.any_eq_true]
  refine forall_congr' fun k => ?_
  simp only [Bool.and_eq_true, bne_iff_ne, List.contains_iff_mem, not_exists, not_and]
  exact forall_congr' fun h => forall_congr' fun _ => ⟨fun g m => Decidable.byContradiction fun n => g n m, fun g n m => n (g m)⟩

theorem State.foreignAccess_eq_false_iff (s : State) (c : CtxId) (t : TargetId) : s.foreignAccess c t = false ↔
    ∀ a, s.bus.state = .access a → a.target = t → a.owner = c := by
  unfold State.foreignAccess
  split
  · next a access =>
    simp only [access, BusState.access.injEq, forall_eq', Bool.and_eq_false_iff, bne_eq_false_iff_eq, beq_eq_false_iff_ne]
    exact ⟨fun g m => g.resolve_right fun n => n m,
      fun g => (Decidable.em (a.target = t)).elim (fun m => .inl (g m)) .inr⟩
  · next noAccess => exact ⟨fun _ a access => (noAccess a access).elim, fun _ => rfl⟩

/-- A target stands in the way of no grant to `w`: its row is free, no older member names it, and no other context holds a
chunk for it or accesses it (R106, R107). -/
structure State.OpenFor (s : State) (olderMembers : List LockWaiter) (w : LockWaiter) (t : TargetId) : Prop where
  row : s.locks.rows[t] = none
  unnamed : ∀ v ∈ olderMembers, v.set.getLsbD t.val = false
  chunks : ∀ (k : ChunkId) (h : ChunkHold), s.pool.chunks[k] = some h → t ∈ h.targets → h.context = w.context
  access : ∀ a, s.bus.state = .access a → a.target = t → a.owner = w.context

theorem State.openFor_iff (s : State) (l : List LockWaiter) (w : LockWaiter) (t : TargetId) : s.OpenFor l w t ↔
    s.locks.rows[t] = none ∧ (∀ v ∈ l, v.set.getLsbD t.val = false)
      ∧ (∀ (k : ChunkId) (h : ChunkHold), s.pool.chunks[k] = some h → t ∈ h.targets → h.context = w.context)
      ∧ (∀ a, s.bus.state = .access a → a.target = t → a.owner = w.context) :=
  ⟨fun ⟨a, b, c, d⟩ => ⟨a, b, c, d⟩, fun ⟨a, b, c, d⟩ => ⟨a, b, c, d⟩⟩

theorem State.lockPasses_iff (s : State) (l : List LockWaiter) (w : LockWaiter) : s.lockPasses l w = true ↔
    ∀ t : TargetId, w.set.getLsbD t.val = true → s.OpenFor l w t := by
  simp only [State.lockPasses, List.all_eq_true, List.mem_finRange, forall_const, maskHas]
  refine forall_congr' fun t => ?_
  rw [State.openFor_iff, ← State.foreignChunk_eq_false_iff, ← State.foreignAccess_eq_false_iff]
  cases w.set.getLsbD t.val <;> simp [and_assoc]

/-! ### A grant and a visit -/

theorem State.rows_lockGrant (s : State) (w : LockWaiter) (j : TargetId) : (s.lockGrant w).locks.rows[j] =
    if w.set.getLsbD j.val = true then some w.context else s.locks.rows[j] := by
  simp [State.lockGrant, maskHas]

section
variable {s : State} {kept rest : List LockWaiter} {w : LockWaiter}

theorem lockVisit_grants (h : s.lockPasses kept w = true) :
    s.lockVisit kept (w :: rest) = (s.lockGrant w).lockVisit kept rest := if_pos h

theorem lockVisit_fails (h : ¬ s.lockPasses kept w = true) :
    s.lockVisit kept (w :: rest) = s.lockVisit (kept ++ [w]) rest := if_neg h

end

/-! ### Operations that leave the Lock Table as it is -/

@[simp] theorem locks_grantChunk (s : State) (c : CtxId) (k : ChunkId) (r : Role) (o : Op) (g : Segment) :
    (s.grantChunk c k r o g).1.locks = s.locks := by
  unfold State.grantChunk
  dsimp only
  split <;> rfl

@[simp] theorem locks_grantFirst (s : State) (c : CtxId) (k : ChunkId) : (s.grantFirst c k).locks = s.locks := by
  unfold State.grantFirst
  split
  · split
    · rfl
    · exact locks_grantChunk ..
  · rfl

@[simp] theorem locks_claimFirst (s : State) (c : CtxId) : (s.claimFirst c).locks = s.locks := by
  unfold State.claimFirst
  dsimp only
  split
  · rfl
  · split
    · rfl
    · split
      · exact locks_grantFirst ..
      · rfl

@[simp] theorem locks_reclaim (s : State) : s.reclaim.locks = s.locks :=
  foldl_keeps State.locks _ locks_claimFirst _ _

@[simp] theorem locks_offer (s : State) (k : ChunkId) (l : List Claim) : (s.offer k l).locks = s.locks := by
  induction l generalizing s with
  | nil => rfl
  | cons m rest ih =>
    unfold State.offer
    split
    · exact locks_grantFirst ..
    · exact ih _

@[simp] theorem locks_claimSecond (s : State) (c : CtxId) : (s.claimSecond c).locks = s.locks := by
  unfold State.claimSecond
  dsimp only
  split
  · split
    · split
      · exact locks_grantChunk ..
      · rfl
    · rfl
  · rfl

@[simp] theorem locks_finishAbort (s : State) (c : CtxId) : (s.finishAbort c).locks = s.locks := by
  unfold State.finishAbort
  split <;> rfl

@[simp] theorem locks_nextOp (s : State) (c : CtxId) : (s.nextOp c).locks = s.locks := by
  unfold State.nextOp
  dsimp only
  split
  · rfl
  · split <;> rfl

@[simp] theorem locks_lookup (s : State) (c : CtxId) (t : TargetId) (second : Bool) :
    (s.lookup c t second).locks = s.locks := by
  unfold State.lookup State.joinRow
  split
  · split <;> rfl
  · split <;> rfl

@[simp] theorem locks_readAgain (s : State) (c : CtxId) (k : ChunkId) (o : Op) (g : Segment) :
    (s.readAgain c k o g).1.locks = s.locks := by
  unfold State.readAgain
  dsimp only
  split <;> rfl

/-! Queue Manager, Record Fetcher and Control Unit. -/

@[simp] theorem locks_handWrite (s : State) (w : PostedWrite) : (s.handWrite w).locks = s.locks := rfl

@[simp] theorem locks_controlDone (s : State) (e : Entry) : (s.controlDone e).locks = s.locks := rfl

@[simp] theorem locks_oweMessage (s : State) (q : QueueId) : (s.oweMessage q).locks = s.locks := by
  unfold State.oweMessage
  split
  · rfl
  · split <;> rfl

@[simp] theorem locks_oweNotice (s : State) : s.oweNotice.locks = s.locks := by
  unfold State.oweNotice
  split
  · rfl
  · split <;> rfl

@[simp] theorem locks_writeIrqEnable (s : State) (on : Bool) : (s.writeIrqEnable on).locks = s.locks := by
  have owes (u : State) (q : QueueId) : (if (u.queue q).messageDue || decide ((u.queue q).threshold ≤ (u.queue q).count)
      then u.oweMessage q else u).locks = u.locks := by
    split
    · exact locks_oweMessage u q
    · rfl
  unfold State.writeIrqEnable
  dsimp only
  split
  · exact foldl_keeps State.locks _ owes _ _
  · rfl

@[simp] theorem locks_visitQueue (s : State) (q : QueueId) : (s.visitQueue q).locks = s.locks := by
  unfold State.visitQueue
  split
  · split
    · rfl
    · split <;> rfl
  · rfl

@[simp] theorem locks_fetchEvaluate (s : State) : s.fetchEvaluate.locks = s.locks := by
  unfold State.fetchEvaluate
  split
  · rfl
  · exact foldl_keeps State.locks _ (fun _ _ => locks_visitQueue _ _) _ _

@[simp] theorem locks_halt (s : State) (q : QueueId) (why : HaltReason) : (s.halt q why).locks = s.locks :=
  locks_oweNotice _

@[simp] theorem locks_disable (s : State) (q : QueueId) : (s.disable q).locks = s.locks := by
  unfold State.disable
  dsimp only
  split
  · exact locks_oweMessage ..
  · rfl

@[simp] theorem locks_stopQueue (s : State) (q : QueueId) : (s.stopQueue q).locks = s.locks := by
  unfold State.stopQueue
  split <;> rfl

@[simp] theorem locks_controlTest (s : State) : s.controlTest.locks = s.locks := by
  unfold State.controlTest
  dsimp only
  split
  · split <;> rfl
  · rfl

@[simp] theorem locks_runCfgq (s : State) (r : ControlRecord) : (s.runCfgq r).locks = s.locks := by
  unfold State.runCfgq
  repeat' split
  all_goals rfl

@[simp] theorem locks_runEnq (s : State) (r : ControlRecord) : (s.runEnq r).locks = s.locks := by
  unfold State.runEnq
  split
  · rfl
  · split
    · rfl
    · split
      · rfl
      · exact locks_fetchEvaluate _

@[simp] theorem locks_runQryq (s : State) (r : ControlRecord) : (s.runQryq r).locks = s.locks := by
  unfold State.runQryq
  split <;> rfl

@[simp] theorem locks_runRlst (s : State) (r : ControlRecord) : (s.runRlst r).locks = s.locks := by
  unfold State.runRlst
  split <;> rfl

@[simp] theorem locks_pulseRequest (s : State) : s.pulseRequest.locks = s.locks := by
  unfold State.pulseRequest
  dsimp only
  split <;> rfl

@[simp] theorem locks_runRstt (s : State) (r : ControlRecord) : (s.runRstt r).locks = s.locks := by
  unfold State.runRstt
  split
  · rfl
  · exact locks_pulseRequest _

@[simp] theorem locks_nextPulse (s : State) : s.nextPulse.locks = s.locks := by
  unfold State.nextPulse
  split <;> rfl

/-! Profile Cache and target bus. -/

@[simp] theorem locks_invalidate (s : State) (t : TargetId) : (s.invalidate t).locks = s.locks := by
  unfold State.invalidate State.windowInvalidate
  dsimp only
  split
  · split
    · rfl
    · split <;> rfl
  · split <;> rfl

@[simp] theorem locks_invalidateAll (s : State) : s.invalidateAll.locks = s.locks :=
  foldl_keeps State.locks _ locks_invalidate _ _

@[simp] theorem locks_runInvp (s : State) (r : ControlRecord) : (s.runInvp r).locks = s.locks := by
  unfold State.runInvp
  split
  · exact (locks_controlDone ..).trans (locks_invalidateAll s)
  · split
    · exact (locks_controlDone ..).trans (locks_invalidate ..)
    · rfl

@[simp] theorem locks_fill (s : State) (t : TargetId) (p : Profile) : (s.fill t p).locks = s.locks := by
  unfold State.fill
  simp only [State.touch, State.modCache_locks]
  split <;> rfl

@[simp] theorem locks_startFirstPhase (s : State) (a : Access) : (s.startFirstPhase a).locks = s.locks := by
  unfold State.startFirstPhase
  split <;> rfl

@[simp] theorem locks_storeBeat (s : State) (a : Access) (lines : BitVec 32) : (s.storeBeat a lines).locks = s.locks := by
  unfold State.storeBeat
  dsimp only
  repeat' split
  all_goals rfl

@[simp] theorem locks_handData (s : State) (c : CtxId) (o : Op) (g : Segment) (moved : Nat) :
    (s.handData c o g moved).locks = s.locks := by
  unfold State.handData
  split
  · rfl
  · split
    · rfl
    · exact foldl_keeps State.locks _ (fun _ _ => locks_handWrite _ _) _ _

@[simp] theorem locks_countShort (s : State) (c : CtxId) (o : Op) (g : Segment) (moved : Nat) :
    (s.countShort c o g moved).locks = s.locks := by
  unfold State.countShort
  dsimp only
  split
  · rfl
  · split
    · exact locks_handData ..
    · rfl

@[simp] theorem locks_ownerPrepares (s : State) (c : CtxId) : (s.ownerPrepares c).locks = s.locks := by
  unfold State.ownerPrepares
  split <;> rfl

@[simp] theorem locks_ownerWaits (s : State) (c : CtxId) (k : TimerKind) (due : Nat) :
    (s.ownerWaits c k due).locks = s.locks := by
  unfold State.ownerWaits
  split <;> rfl

/-! Host reads. -/

@[simp] theorem locks_issueRead (s : State) (i : TagId) (k : ReqClass) (r : ReadReq) :
    (s.issueRead i k r).locks = s.locks := by
  unfold State.issueRead State.countIssued
  split <;> rfl

@[simp] theorem locks_segmentRead (s : State) (c : CtxId) (k : ChunkId) (role : Role) (g : Segment) (place : Nat)
    (r : Response) : (s.segmentRead c k role g place r).locks = s.locks := by
  unfold State.segmentRead State.overtakenRead
  dsimp only
  repeat' split
  all_goals rfl

end Sys2Proof.Machine
end

section
/-! PROOFS. A held lock row stays with its holder (R106, R108, R114): under every operation of the model but the release of a
set, and so under every command but a reset and the issue of an entry. -/

namespace Sys2Proof.Machine

/-- Target `t`'s row is held by context `h`. -/
structure State.LockedBy (s : State) (t : TargetId) (h : CtxId) : Prop where
  row : s.locks.rows[t] = some h

namespace State.LockedBy
variable {s : State} {t : TargetId} {h : CtxId}

theorem of_locks {u : State} (w : s.LockedBy t h) (same : u.locks = s.locks) : u.LockedBy t h :=
  ⟨(congrArg (fun l : LockTable => l.rows[t]) same).trans w.row⟩

/-- Of two outcomes of a test both keep the row held. -/
theorem ite {p : Prop} [Decidable p] {u v : State} (yes : u.LockedBy t h) (no : v.LockedBy t h) :
    (if p then u else v).LockedBy t h := by
  split
  · exact yes
  · exact no

/-- A fold keeps a row held that each of its steps keeps held. -/
theorem foldl {α : Type} {f : State → α → State} {l : List α} (w : s.LockedBy t h)
    (each : ∀ {u : State} {a : α}, u.LockedBy t h → (f u a).LockedBy t h) : (l.foldl f s).LockedBy t h :=
  List.foldlRecOn (motive := fun u => u.LockedBy t h) l f w fun _ held _ _ => each held

/-! ### Updates of one block -/

theorem modCtx {c : CtxId} {f : Context → Context} (w : s.LockedBy t h) : (s.modCtx c f).LockedBy t h := w.of_locks rfl

theorem modQueue {q : QueueId} {f : QueueRow → QueueRow} (w : s.LockedBy t h) : (s.modQueue q f).LockedBy t h :=
  w.of_locks rfl

theorem modPort {f : HostPort → HostPort} (w : s.LockedBy t h) : (s.modPort f).LockedBy t h := w.of_locks rfl

theorem modBus {f : BusCtl → BusCtl} (w : s.LockedBy t h) : (s.modBus f).LockedBy t h := w.of_locks rfl

theorem modRow {k : TargetId} {f : FetchRow → FetchRow} (w : s.LockedBy t h) : (s.modRow k f).LockedBy t h :=
  w.of_locks rfl

theorem modWaiters {f : List LockWaiter → List LockWaiter} (w : s.LockedBy t h) :
    (s.modLocks fun l => { l with waiters := f l.waiters }).LockedBy t h := ⟨w.row⟩

theorem modControl {f : ControlUnit → ControlUnit} (w : s.LockedBy t h) : (s.modControl f).LockedBy t h := w.of_locks rfl

theorem modRegs {f : Regs → Regs} (w : s.LockedBy t h) : (s.modRegs f).LockedBy t h := w.of_locks rfl

theorem setTag {i : TagId} {k : Tag} (w : s.LockedBy t h) : (s.setTag i k).LockedBy t h := w.of_locks rfl

theorem setFetch {q : QueueId} {f : Option FetchRecord} (w : s.LockedBy t h) : (s.setFetch q f).LockedBy t h :=
  w.of_locks rfl

theorem setChunk {k : ChunkId} {v : Option ChunkHold} (w : s.LockedBy t h) : (s.setChunk k v).LockedBy t h :=
  w.of_locks rfl

theorem untilUs {n : Nat} (w : s.LockedBy t h) : (s.untilUs n).LockedBy t h := w.of_locks rfl

theorem dropReads {p : ReadRef → Bool} (w : s.LockedBy t h) : (s.dropReads p).LockedBy t h := w.of_locks rfl

theorem completeAborted {c : CtxId} (w : s.LockedBy t h) : (s.completeAborted c).LockedBy t h := w.of_locks rfl

theorem controlDone {e : Entry} (w : s.LockedBy t h) : (s.controlDone e).LockedBy t h := w.of_locks rfl

theorem busReleased {a : Access} {how : AccessEnd} (w : s.LockedBy t h) : (s.busReleased a how).LockedBy t h :=
  w.of_locks rfl

/-! ### Lock Table and Staging Pool -/

theorem reclaim (w : s.LockedBy t h) : s.reclaim.LockedBy t h := w.of_locks (locks_reclaim s)

/-- A grant takes free rows alone (R106). -/
theorem lockGrant {kept : List LockWaiter} {m : LockWaiter} (w : s.LockedBy t h) (passes : s.lockPasses kept m = true) :
    (s.lockGrant m).LockedBy t h := by
  have unnamed : ¬ m.set.getLsbD t.val = true := fun named =>
    nomatch w.row.symm.trans ((s.lockPasses_iff kept m).mp passes t named).row
  exact ⟨by rw [State.rows_lockGrant, if_neg unnamed, w.row]⟩

theorem lockVisit {kept l : List LockWaiter} (w : s.LockedBy t h) : (s.lockVisit kept l).LockedBy t h := by
  induction l generalizing s kept with
  | nil => exact w.modWaiters (f := fun _ => kept)
  | cons m rest ih =>
    by_cases passes : s.lockPasses kept m = true
    · rw [lockVisit_grants passes]
      exact ih (w.lockGrant passes)
    · rw [lockVisit_fails passes]
      exact ih w

theorem lockEvaluate (w : s.LockedBy t h) : s.lockEvaluate.LockedBy t h := by
  unfold State.lockEvaluate
  dsimp only
  split
  · exact w
  · split
    · exact .reclaim w.lockVisit
    · exact w.lockVisit

theorem lockJoin {c : CtxId} (w : s.LockedBy t h) : (s.lockJoin c).LockedBy t h :=
  .lockEvaluate (.modCtx w.modWaiters)

theorem lockLeave {c : CtxId} (w : s.LockedBy t h) : (s.lockLeave c).LockedBy t h :=
  .reclaim (.lockEvaluate w.modWaiters)

theorem freeChunk {k : ChunkId} (w : s.LockedBy t h) : (s.freeChunk k).LockedBy t h := by
  unfold State.freeChunk
  split
  · exact w
  · next g _ =>
    have evaluated : ((s.setChunk k none).wake g.context).lockEvaluate.LockedBy t h :=
      .lockEvaluate (.of_locks w.setChunk (locks_wake _ _))
    dsimp only
    split
    · exact .of_locks evaluated (locks_offer ..)
    · exact evaluated

theorem freeIfDone {k : ChunkId} (w : s.LockedBy t h) : (s.freeIfDone k).LockedBy t h := by
  unfold State.freeIfDone
  split
  · exact w
  · split
    · exact w.freeChunk
    · exact w

theorem endChunk {k : ChunkId} (w : s.LockedBy t h) : (s.endChunk k).LockedBy t h := by
  unfold State.endChunk
  split
  · exact w
  · exact .freeIfDone (.setChunk (.dropReads w))

theorem endRole {c : CtxId} {r : Role} (w : s.LockedBy t h) : (s.endRole c r).LockedBy t h := by
  unfold State.endRole
  split
  · exact w
  · exact w.endChunk

theorem discardStaged {c : CtxId} (w : s.LockedBy t h) : (s.discardStaged c).LockedBy t h := .endRole (.modCtx w)

theorem freeChunksOf {c : CtxId} (w : s.LockedBy t h) : (s.freeChunksOf c).LockedBy t h := .foldl w .freeChunk

/-! ### Transaction Engine -/

theorem endOp {c : CtxId} {failure : Option Status} {bad : Bool} (w : s.LockedBy t h) :
    (s.endOp c failure bad).LockedBy t h := by
  have closed : (((s.modCtx c fun x => x.opEnded failure bad).discardStaged c).endRole c .current).LockedBy t h :=
    .endRole (.discardStaged (.modCtx w))
  unfold State.endOp
  dsimp only
  split
  · exact .completeAborted closed
  · split
    · split
      · exact .of_locks closed (locks_nextOp ..)
      · exact closed.of_locks rfl
    · exact .of_locks closed (locks_nextOp ..)

theorem failOp {c : CtxId} {code : Status} (w : s.LockedBy t h) : (s.failOp c code).LockedBy t h := w.endOp

theorem resetFails {c : CtxId} (w : s.LockedBy t h) : (s.resetFails c).LockedBy t h := by
  unfold State.resetFails
  dsimp only
  split
  · exact w.of_locks rfl
  · exact .failOp (.dropReads w)

theorem prepReady {c : CtxId} (w : s.LockedBy t h) : (s.prepReady c).LockedBy t h := by
  unfold State.prepReady
  dsimp only
  repeat' split
  · exact w
  · exact w.of_locks rfl
  · exact w.resetFails
  · exact w.failOp
  · exact w.modCtx

theorem prepData {c : CtxId} (w : s.LockedBy t h) : (s.prepData c).LockedBy t h := by
  unfold State.prepData
  dsimp only
  repeat' split
  · exact w.prepReady
  · exact w.failOp
  · exact w.of_locks rfl
  · exact w.prepReady
  · exact w.of_locks rfl
  · exact w

theorem prepCut {c : CtxId} (w : s.LockedBy t h) : (s.prepCut c).LockedBy t h := by
  unfold State.prepCut
  dsimp only
  split
  · exact w
  · split
    · exact .prepReady (.modCtx w)
    · split
      · exact .of_locks (.modCtx w) (locks_claimFirst ..)
      · refine .prepData (.modCtx ?_)
        split
        · exact .of_locks (.setChunk w) (locks_readAgain ..)
        · exact w.setChunk

theorem prepChecks {c : CtxId} (w : s.LockedBy t h) : (s.prepChecks c).LockedBy t h := by
  unfold State.prepChecks
  dsimp only
  repeat' split
  · exact w
  · exact w.failOp
  · exact w.failOp
  · exact .prepCut (.modCtx w)

theorem prepJudge {c : CtxId} {second : Bool} (w : s.LockedBy t h) : (s.prepJudge c second).LockedBy t h := by
  unfold State.prepJudge
  dsimp only
  split
  · split
    · exact w.failOp
    · exact w.endOp
    · repeat' split
      · exact w.of_locks (locks_lookup ..)
      · exact w.of_locks rfl
      · exact w.prepChecks
  · exact w.of_locks rfl

theorem prepLookup {c : CtxId} (w : s.LockedBy t h) : (s.prepLookup c).LockedBy t h := by
  unfold State.prepLookup
  dsimp only
  repeat' split
  · exact w
  · exact .of_locks (.modCtx w) (locks_lookup ..)
  · exact .of_locks (.modCtx w) (locks_lookup ..)

theorem prepStart {c : CtxId} (w : s.LockedBy t h) : (s.prepStart c).LockedBy t h := by
  unfold State.prepStart
  split
  · exact w.resetFails
  · exact w.prepLookup

theorem prepClaim {c : CtxId} (w : s.LockedBy t h) : (s.prepClaim c).LockedBy t h := by
  unfold State.prepClaim
  repeat' split
  · exact w
  · exact w.of_locks (locks_claimFirst ..)
  · exact w.of_locks rfl

theorem prepare {c : CtxId} (w : s.LockedBy t h) : (s.prepare c).LockedBy t h := by
  unfold State.prepare
  split
  · exact w.prepStart
  · exact w.prepLookup
  · exact w.prepJudge
  · exact w.prepClaim
  · exact w.prepData
  · exact w

theorem settleFor {n : Nat} (w : s.LockedBy t h) : (s.settleFor n).LockedBy t h := by
  induction n generalizing s with
  | zero => exact w
  | succ n ih =>
    unfold State.settleFor
    split
    · exact w
    · exact ih w.prepare

theorem settle (w : s.LockedBy t h) : s.settle.LockedBy t h := by
  unfold State.settle
  split
  · exact w
  · exact w.settleFor

theorem abort {c : CtxId} (w : s.LockedBy t h) : (s.abort c).LockedBy t h := by
  unfold State.abort
  dsimp only
  cases (s.ctx c).state with
  | lockWait => exact .lockLeave (.completeAborted (.modCtx w))
  | preparing =>
    dsimp only
    split
    · exact w.of_locks rfl
    · exact .of_locks (w.of_locks rfl) (locks_finishAbort ..)
  | free | loading | completing | onBus | fenceWait | busReady | timerWait => exact w.of_locks rfl

/-! ### Fences and loads -/

theorem beginTransaction {c : CtxId} (w : s.LockedBy t h) : (s.beginTransaction c).LockedBy t h := by
  unfold State.beginTransaction
  split
  · exact w.modCtx
  · exact w.lockJoin

theorem fenceTest {c : CtxId} (w : s.LockedBy t h) : (s.fenceTest c).LockedBy t h := by
  unfold State.fenceTest
  split
  · exact w
  · exact w.beginTransaction

theorem fenceRelease {q : QueueId} (w : s.LockedBy t h) : (s.fenceRelease q).LockedBy t h := .foldl w .fenceTest

theorem accept {c : CtxId} {ops : List Op} (w : s.LockedBy t h) : (s.accept c ops).LockedBy t h := by
  unfold State.accept
  dsimp only
  split
  · exact .fenceTest (.modCtx (.modCtx w))
  · exact .beginTransaction (.modCtx w)

theorem loadOutcome {c : CtxId} {how : LoadEnd} (w : s.LockedBy t h) : (s.loadOutcome c how).LockedBy t h := by
  have accepted {ops : List Op} {ok : Bool} : (if ok then s.accept c ops else
      (s.modCtx c fun x => { x with slots := [] }).complete c .malformedRecord (some .malformedRecord)).LockedBy t h := by
    split
    · exact w.accept
    · exact w.of_locks rfl
  unfold State.loadOutcome
  dsimp only
  split
  · exact .completeAborted (.modCtx w)
  · cases how with
    | short | extensionError => exact w.of_locks rfl
    | allLoaded | oneSlot => exact accepted

theorem loadEnded {q : QueueId} {c : CtxId} {expected : Nat} {how : LoadEnd} (w : s.LockedBy t h) :
    (s.loadEnded q c expected how).LockedBy t h := by
  unfold State.loadEnded
  cases how with
  | short | extensionError => exact .of_locks (.loadOutcome (.setFetch (.modQueue w))) (locks_halt ..)
  | allLoaded | oneSlot =>
    dsimp only
    exact .loadOutcome (.setFetch (.modQueue w))

/-! ### Control Unit -/

theorem stopAndMark {q : QueueId} {abortMode : Bool} (w : s.LockedBy t h) : (s.stopAndMark q abortMode).LockedBy t h := by
  have stopped := w.of_locks (locks_stopQueue s q)
  unfold State.stopAndMark
  dsimp only
  split
  · exact .foldl stopped .abort
  · exact stopped

theorem runDisq {r : ControlRecord} (w : s.LockedBy t h) : (s.runDisq r).LockedBy t h := by
  unfold State.runDisq
  dsimp only
  split
  · exact w.controlDone
  · split
    · exact w.controlDone
    · split
      · exact w.controlDone
      · split
        · split
          · exact w.of_locks rfl
          · exact .modControl (.stopAndMark w)
        · exact .controlDone (.of_locks (.stopAndMark w) (locks_disable ..))

theorem runAbt {r : ControlRecord} (w : s.LockedBy t h) : (s.runAbt r).LockedBy t h := by
  unfold State.runAbt
  dsimp only
  split
  · exact w.controlDone
  · split
    · exact w.controlDone
    · exact .controlDone (.foldl w .abort)

theorem retakeHeld (w : s.LockedBy t h) : s.retakeHeld.LockedBy t h := by
  unfold State.retakeHeld
  split
  · refine .of_locks ?_ (locks_controlTest _)
    split
    · exact .runDisq (.modControl w)
    · exact .of_locks (.modControl w) (locks_runRstt ..)
  · exact w

theorem pendingDone {done rest : List PendingEntry} (w : s.LockedBy t h) : (s.pendingDone done rest).LockedBy t h := by
  unfold State.pendingDone
  split
  · exact w
  · exact .retakeHeld (.foldl (.modControl w) .controlDone)

theorem queueTest {q : QueueId} (w : s.LockedBy t h) : (s.queueTest q).LockedBy t h := by
  unfold State.queueTest
  dsimp only
  split
  · exact .pendingDone (.of_locks w (locks_disable s q))
  · exact w

/-- A control record is taken (R164). -/
theorem takeSlot {run : State → ControlRecord → State} {slot : List Byte} {isRow : Byte → Bool} (w : s.LockedBy t h)
    (runs : ∀ {u : State} {r : ControlRecord}, u.LockedBy t h → (run u r).LockedBy t h) :
    (s.takeSlot slot isRow run).LockedBy t h := by
  unfold State.takeSlot
  split
  · exact w
  · split
    · exact w
    · split
      · exact w.setTag
      · next i _ _ _ =>
        have taken : (s.slotTaken i).LockedBy t h := w.of_locks rfl
        exact .settle (.of_locks (runs taken) (locks_controlTest _))

/-! ### Returns of host reads -/

theorem fetchEnded {q : QueueId} (w : s.LockedBy t h) : (s.fetchEnded q).LockedBy t h :=
  .settle (.of_locks (.queueTest w) (locks_fetchEvaluate _))

theorem loadEnd {q : QueueId} {c : CtxId} {expected : Nat} {how : LoadEnd} (w : s.LockedBy t h) :
    (s.loadEnd q c expected how).LockedBy t h := .fetchEnded (.loadEnded w)

theorem headerReturned {q : QueueId} {c : CtxId} {r : Response} (w : s.LockedBy t h) :
    (s.headerReturned q c r).LockedBy t h := by
  unfold State.headerReturned
  dsimp only
  split
  · have freed : (((s.freeContext q c).giveBack q).setFetch q none).LockedBy t h := w.of_locks rfl
    exact .fetchEnded (.of_locks freed.fenceRelease (locks_halt ..))
  · repeat' split
    · exact .loadEnd (.modCtx w)
    · exact .loadEnd (.modCtx w)
    · exact .loadEnd (.modCtx w)
    · exact w.of_locks rfl

theorem extensionReturned {q : QueueId} {c : CtxId} {n : Nat} {r : Response} (w : s.LockedBy t h) :
    (s.extensionReturned q c n r).LockedBy t h := by
  unfold State.extensionReturned
  dsimp only
  split
  · exact w
  · split
    · split
      · exact .loadEnd (.modCtx (.setFetch w))
      · exact .modCtx (.setFetch w)
    · split
      · exact .loadEnd (.modPort (.setFetch w))
      · exact .modPort (.setFetch w)

theorem profileReturned {k : TargetId} {r : Response} (w : s.LockedBy t h) : (s.profileReturned k r).LockedBy t h := by
  unfold State.profileReturned
  dsimp only
  refine .settle (.foldl ?_ fun held => held.of_locks (locks_finishAbort ..))
  split
  · split
    · exact w.modRow
    · exact w.of_locks rfl
  · split
    · exact .foldl (.of_locks (.modRow w) (locks_fill ..)) .modCtx
    · exact .foldl (.modRow w) .failOp

theorem chunkRead {c : CtxId} {k : ChunkId} {place : Nat} {r : Response} (w : s.LockedBy t h) :
    (s.chunkRead c k place r).LockedBy t h := by
  unfold State.chunkRead
  split
  · exact w
  · split
    · exact w.freeIfDone
    · split
      · exact w
      · split
        · exact w
        · exact w.of_locks (locks_segmentRead ..)

theorem afterDataRead {c : CtxId} (w : s.LockedBy t h) : (s.afterDataRead c).LockedBy t h := by
  unfold State.afterDataRead
  dsimp only
  split
  · exact w
  · split
    · split
      · exact w
      · exact w.of_locks rfl
    · split
      · exact w.of_locks (locks_finishAbort ..)
      · split
        · exact w
        · exact w.of_locks rfl
    · exact w

theorem handResponse {ref : ReadRef} {r : Response} (w : s.LockedBy t h) : (s.handResponse ref r).LockedBy t h := by
  unfold State.handResponse
  split
  · exact w.headerReturned
  · exact w.extensionReturned
  · split
    · exact w.of_locks rfl
    · exact w
  · exact w.profileReturned
  · exact .settle (.afterDataRead (.chunkRead w))

/-- A read returns (R160). -/
theorem readReturns {i : TagId} {r : Response} {ofRow : ReadRef → Bool} (w : s.LockedBy t h) :
    (s.readReturns i r ofRow).LockedBy t h := by
  unfold State.readReturns
  dsimp only
  split
  · exact w
  · repeat' split
    · exact w
    · exact w.setTag
    · exact .handResponse (.setTag w)

/-! ### Target bus -/

theorem nextSegmentBegins {c : CtxId} (w : s.LockedBy t h) : (s.nextSegmentBegins c).LockedBy t h := by
  unfold State.nextSegmentBegins
  refine .modCtx (.ite (.discardStaged w) ?_)
  split
  · exact w.of_locks rfl
  · exact w

theorem segmentEnds {c : CtxId} (w : s.LockedBy t h) : (s.segmentEnds c).LockedBy t h := by
  have ended : (s.endRole c .current).LockedBy t h := w.endRole
  unfold State.segmentEnds
  dsimp only
  split
  · exact ended
  · exact .ite (.endOp (.modCtx ended)) (.ite (.completeAborted ended) (.nextSegmentBegins ended))

theorem attemptEnds {c : CtxId} {o : Op} (w : s.LockedBy t h) : (s.attemptEnds c o).LockedBy t h := by
  unfold State.attemptEnds
  exact .ite (.endOp (.modCtx w)) (.ite (.failOp (.modCtx w)) (.ite (.of_locks (.modCtx w) (locks_ownerPrepares ..))
    (.of_locks (.modCtx w) (locks_ownerWaits ..))))

theorem ownerDone {c : CtxId} {o : Op} {g : Segment} {moved : Nat} (w : s.LockedBy t h) :
    (s.ownerDone c o g moved).LockedBy t h := by
  unfold State.ownerDone
  dsimp only
  split
  · exact w.attemptEnds
  · split
    · exact .of_locks (.modCtx w) (locks_ownerPrepares ..)
    · refine .segmentEnds ?_
      split
      · exact .of_locks (.modCtx w) (locks_handData ..)
      · exact w.modCtx

theorem ownerFlow {c : CtxId} {o : Op} {g : Segment} {moved : Nat} (w : s.LockedBy t h) :
    (s.ownerFlow c o g moved).LockedBy t h := by
  have counted : ((s.countShort c o g moved).discardStaged c).LockedBy t h :=
    .discardStaged (.of_locks w (locks_countShort ..))
  unfold State.ownerFlow
  dsimp only
  split
  · exact counted.endOp
  · split
    · exact .failOp (.modCtx counted)
    · exact .of_locks (.modCtx (.modCtx counted)) (locks_ownerWaits ..)

theorem ownerRetry {c : CtxId} {g : Segment} (w : s.LockedBy t h) : (s.ownerRetry c g).LockedBy t h := by
  unfold State.ownerRetry
  dsimp only
  split
  · exact .failOp (.modCtx (.discardStaged w))
  · exact .of_locks (.modCtx (.discardStaged w)) (locks_ownerWaits ..)

theorem ownerRelease {c : CtxId} {k : TargetId} (w : s.LockedBy t h) : (s.ownerRelease c k).LockedBy t h := by
  have invalidated : (((s.discardStaged c).modCtx c fun x => { x with releases := x.releases + 1 }).invalidate k).LockedBy
      t h := .of_locks (.modCtx (.discardStaged w)) (locks_invalidate ..)
  unfold State.ownerRelease
  dsimp only
  split
  · exact invalidated.failOp
  · exact invalidated.of_locks (locks_ownerPrepares ..)

theorem ownerEnd {a : Access} {how : AccessEnd} (w : s.LockedBy t h) : (s.ownerEnd a how).LockedBy t h := by
  unfold State.ownerEnd
  dsimp only
  split
  · split
    · exact .ownerDone (.modCtx w)
    · exact .ownerRetry (.modCtx w)
    · exact .failOp (.discardStaged (.modCtx w))
    · exact .ownerRelease (.modCtx w)
    · exact .ownerFlow (.modCtx w)
    · exact .failOp (.discardStaged (.of_locks (.modCtx w) (locks_countShort ..)))
  · exact w.modCtx

theorem afterOwner (w : s.LockedBy t h) : s.afterOwner.LockedBy t h := by
  unfold State.afterOwner
  dsimp only
  refine .settle ?_
  split
  · exact w.lockEvaluate.of_locks rfl
  · exact w.lockEvaluate

/-- An access ends (R54). -/
theorem accessEnds {a : Access} {how : AccessEnd} (w : s.LockedBy t h) : (s.accessEnds a how).LockedBy t h := by
  have quarantined : (if how = .holdTimeout then s.quarantine a.target (s.ctx a.owner).tag ((s.ctx a.owner).queue.getD 0)
      else s).LockedBy t h := by
    split
    · exact w.of_locks rfl
    · exact w
  unfold State.accessEnds
  extract_lets _ u released
  have ended : released.LockedBy t h := .busReleased quarantined
  split
  · exact ended
  · exact .afterOwner (.ownerEnd ended)

theorem holdStarts {a : Access} (w : s.LockedBy t h) : (s.holdStarts a).LockedBy t h := w.of_locks rfl

theorem openPhaseDone {a : Access} {response : BitVec 2} (w : s.LockedBy t h) :
    (s.openPhaseDone a response).LockedBy t h := by
  unfold State.openPhaseDone
  split
  · exact w.of_locks rfl
  · exact w.accessEnds
  · exact w.accessEnds
  · exact w.accessEnds

theorem strobeDone {a : Access} {flow : Bool} {lines : BitVec 32} (w : s.LockedBy t h) :
    (s.strobeDone a flow lines).LockedBy t h := by
  have stored : (if a.direction = .read then s.storeBeat a lines else s).LockedBy t h := by
    split
    · exact w.of_locks (locks_storeBeat ..)
    · exact w
  unfold State.strobeDone
  dsimp only
  split
  · exact w.accessEnds
  · split
    · exact .accessEnds (stored.of_locks rfl)
    · exact stored.of_locks rfl

theorem grantAccess {a : Access} {l r n : Nat} (w : s.LockedBy t h) : (s.grantAccess a l r n).LockedBy t h := by
  unfold State.grantAccess
  extract_lets _ staged
  have kept : staged.LockedBy t h := .of_locks (w.of_locks rfl) (locks_claimSecond ..)
  split
  · exact kept
  · exact .of_locks kept (locks_startFirstPhase ..)

theorem timerDue {c : CtxId} {k : TimerKind} (w : s.LockedBy t h) : (s.timerDue c k).LockedBy t h := by
  unfold State.timerDue
  dsimp only
  split
  · split
    · exact .settle (.modCtx (.untilUs w))
    · exact w
  · exact w

theorem pulseEnds {due : Nat} (w : s.LockedBy t h) : (s.pulseEnds due).LockedBy t h := by
  unfold State.pulseEnds
  extract_lets _ quiet invalidated
  have cleared : ({ quiet with targets := Vector.replicate 16 none } : State).LockedBy t h := w.of_locks rfl
  have kept : invalidated.LockedBy t h := cleared.of_locks (locks_invalidateAll _)
  exact .settle (.of_locks (.modBus kept.pendingDone) (locks_nextPulse _))

theorem powerOnPulseOver {due : Nat} (w : s.LockedBy t h) :
    ((((s.untilUs due).invalidateAll).modBus BusCtl.pulseOver).nextPulse.settle).LockedBy t h :=
  .settle (.of_locks (.modBus (.of_locks (.untilUs w) (locks_invalidateAll _))) (locks_nextPulse _))

/-! ### Register window, INDEX_PORT and issues -/

theorem takeEnable (w : s.LockedBy t h) : s.takeEnable.LockedBy t h :=
  .of_locks (.modRegs (.modQueue w)) (locks_controlTest _)

theorem writeIrqEnable {on : Bool} (w : s.LockedBy t h) : (s.writeIrqEnable on).LockedBy t h :=
  w.of_locks (locks_writeIrqEnable s on)

theorem indexErrorSeen {kind : IndexErrorKind} {queue : BitVec 4} (w : s.LockedBy t h) :
    (s.indexErrorSeen kind queue).LockedBy t h := by
  unfold State.indexErrorSeen
  exact .ite w (.of_locks (.modRegs w) (locks_oweNotice _))

theorem tailTaken {q : QueueId} (w : s.LockedBy t h) : (s.tailTaken q).LockedBy t h := by
  unfold State.tailTaken
  exact .ite (.of_locks (.ite (.modControl w) w) (locks_controlTest _)) (w.of_locks (locks_fetchEvaluate s))

theorem roomMade {q : QueueId} (w : s.LockedBy t h) : (s.roomMade q).LockedBy t h := by
  unfold State.roomMade
  exact .ite (.ite (.of_locks (.modControl w) (locks_controlTest _)) w) (w.of_locks (locks_fetchEvaluate s))

theorem handContext {c : CtxId} {q : QueueId} {e : Entry} (w : s.LockedBy t h) : (s.handContext c q e).LockedBy t h := by
  unfold State.handContext
  extract_lets handed
  have held : handed.LockedBy t h := w.of_locks rfl
  exact .settle held.freeChunksOf

end State.LockedBy

/-! ### Every command but a reset and the issue of an entry -/

/-- An outcome is a next state in which target `t`'s row is held by context `h`. -/
def NextLockedBy (o : Host.Outcome State Fault Refusal) (t : TargetId) (h : CtxId) : Prop :=
  ∃ u, o = .next u ∧ u.LockedBy t h

section
variable {s : State} {t : TargetId} {h : CtxId}

theorem State.LockedBy.next (w : s.LockedBy t h) : NextLockedBy (.next s) t h := ⟨s, rfl, w⟩

variable (w : s.LockedBy t h)
include w

theorem execEnable_keeps_lock (value : BitVec 32) : NextLockedBy (execEnable value s) t h := by
  unfold execEnable
  dsimp only
  split
  · exact w.next
  · split
    · exact w.writeIrqEnable.next
    · split
      · exact w.writeIrqEnable.takeEnable.next
      · exact w.takeEnable.writeIrqEnable.next

theorem execReset_keeps_lock (value : BitVec 32) : NextLockedBy (execReset value s) t h := by
  unfold execReset
  split
  · exact w.next
  · exact w.modRegs.modPort.next

theorem execIrqEnable_keeps_lock (value : BitVec 32) : NextLockedBy (execIrqEnable value s) t h := by
  unfold execIrqEnable
  split
  · exact w.next
  · exact w.writeIrqEnable.next

theorem execIndexErrorClear_keeps_lock (value : BitVec 32) : NextLockedBy (execIndexErrorClear value s) t h := by
  unfold execIndexErrorClear
  split
  · exact w.modRegs.next
  · exact w.next

theorem execSubTail_keeps_lock (queue : BitVec 4) (value : BitVec 16) : NextLockedBy (execSubTail queue value s) t h := by
  unfold execSubTail
  split
  · exact w.next
  · split
    · exact w.indexErrorSeen.next
    · exact w.modQueue.tailTaken.next

theorem execCplHead_keeps_lock (queue : BitVec 4) (value : BitVec 16) : NextLockedBy (execCplHead queue value s) t h := by
  unfold execCplHead
  split
  · exact w.next
  · split
    · exact w.indexErrorSeen.next
    · dsimp only
      split
      · exact w.modQueue.roomMade.next
      · exact w.modQueue.next

theorem execTagGrant_keeps_lock : NextLockedBy (execTagGrant s) t h := by
  unfold execTagGrant
  split
  · exact w.next
  · split
    · exact (w.of_locks (locks_issueRead ..)).next
    · exact w.next

theorem execControlReadError_keeps_lock : NextLockedBy (execControlReadError s) t h := by
  unfold execControlReadError
  split
  · exact w.next
  · exact w.readReturns.next

theorem execHostReadTimeout_keeps_lock (i : TagId) : NextLockedBy (execHostReadTimeout i s) t h := by
  unfold execHostReadTimeout
  split
  · dsimp only
    split
    · exact w.untilUs.setTag.next
    · exact w.untilUs.setTag.handResponse.next
  · exact w.next

theorem execStaleTagExpiry_keeps_lock (i : TagId) : NextLockedBy (execStaleTagExpiry i s) t h := by
  unfold execStaleTagExpiry
  split
  · exact w.untilUs.setTag.next
  · exact w.next

theorem execStaleResponse_keeps_lock (i : TagId) : NextLockedBy (execStaleResponse i s) t h := by
  unfold execStaleResponse
  split
  · exact w.setTag.next
  · exact w.next

theorem execBusGrant_keeps_lock : NextLockedBy (execBusGrant s) t h := by
  unfold execBusGrant
  split
  · exact w.next
  · split
    · exact w.grantAccess.next
    · exact w.next

theorem execTurnOffWaitEnd_keeps_lock : NextLockedBy (execTurnOffWaitEnd s) t h := by
  unfold execTurnOffWaitEnd
  split
  · split
    · next a _ _ =>
      have reached : (s.until (s.bus.turnOff.elim 0 fun r => r.2)).LockedBy t h := w.of_locks rfl
      have begun := reached.of_locks (locks_startFirstPhase _ a)
      exact begun.modBus.next
    · exact w.next
  · exact w.next

theorem execOpenPhaseEnd_keeps_lock (hold : Bool) (response : BitVec 2) :
    NextLockedBy (execOpenPhaseEnd hold response s) t h := by
  unfold execOpenPhaseEnd
  split
  · exact w.next
  · next a _ =>
    have lasted : (s.elapse (max 1 a.snapshot.setup)).LockedBy t h := w.of_locks rfl
    dsimp only
    split
    · exact lasted.holdStarts.next
    · exact lasted.openPhaseDone.next

theorem execBeatEnd_keeps_lock (hold flow : Bool) (lines : BitVec 32) :
    NextLockedBy (execBeatEnd hold flow lines s) t h := by
  unfold execBeatEnd
  split
  · exact w.next
  · next a _ =>
    have lasted : (s.elapse (max 1 a.snapshot.strobe)).LockedBy t h := w.of_locks rfl
    dsimp only
    split
    · exact lasted.holdStarts.next
    · exact lasted.strobeDone.next

theorem execHoldDrop_keeps_lock (response : BitVec 2) (flow : Bool) (lines : BitVec 32) :
    NextLockedBy (execHoldDrop response flow lines s) t h := by
  unfold execHoldDrop
  split
  · exact w.next
  · dsimp only
    split
    · exact w.openPhaseDone.next
    · exact w.strobeDone.next
    · exact w.next

theorem execHoldTimeout_keeps_lock : NextLockedBy (execHoldTimeout s) t h := by
  unfold execHoldTimeout
  split
  · exact w.next
  · exact w.untilUs.accessEnds.next

theorem execCompletionHandoff_keeps_lock (c : CtxId) : NextLockedBy (execCompletionHandoff c s) t h := by
  unfold execCompletionHandoff
  split
  · split
    · exact w.handContext.next
    · exact w.next
  · exact w.next

theorem execDataWriteIssued_keeps_lock : NextLockedBy (execDataWriteIssued s) t h := by
  unfold execDataWriteIssued
  split
  · next k _ _ _ =>
    have popped : s.popWrite.LockedBy t h := w.of_locks rfl
    exact (popped.freeIfDone (k := k)).settle.next
  · exact w.next

theorem execMessageIssued_keeps_lock : NextLockedBy (execMessageIssued s) t h := by
  unfold execMessageIssued
  split
  · have popped : s.popWrite.LockedBy t h := w.of_locks rfl
    exact popped.next
  · exact w.next

theorem execDelayTimerDue_keeps_lock (q : QueueId) : NextLockedBy (execDelayTimerDue q s) t h := by
  unfold execDelayTimerDue
  split
  · exact w.next
  · dsimp only
    split
    · exact (w.untilUs.modQueue.of_locks (locks_oweMessage ..)).next
    · exact w.untilUs.modQueue.next

theorem execPulseEnd_keeps_lock : NextLockedBy (execPulseEnd s) t h := by
  unfold execPulseEnd
  split
  · exact w.pulseEnds.next
  · exact w.next

theorem execPowerOnPulseEnd_keeps_lock : NextLockedBy (execPowerOnPulseEnd s) t h := by
  unfold execPowerOnPulseEnd
  split
  · exact w.powerOnPulseOver.next
  · exact w.next

/-- A row held stays held by the same context: no command but a reset and the issue of an entry releases one. -/
theorem exec_keeps_lock {c : Instr} (keeps : keepsLocks c = true) : NextLockedBy (exec c s) t h := by
  cases c with
  | powerOnReset | linkReset | functionResetComplete | entryIssued => cases keeps
  | enable value => exact execEnable_keeps_lock w value
  | reset value => exact execReset_keeps_lock w value
  | irqEnable value => exact execIrqEnable_keeps_lock w value
  | indexErrorClear value => exact execIndexErrorClear_keeps_lock w value
  | registerWrite => exact w.modRegs.next
  | subTail queue value => exact execSubTail_keeps_lock w queue value
  | cplHead queue value => exact execCplHead_keeps_lock w queue value
  | tagGrant => exact execTagGrant_keeps_lock w
  | headerSlotReturn | extensionSlotReturn | profileLoadReturn | dataReadReturn => exact w.readReturns.next
  | hostReadTimeout tag => exact execHostReadTimeout_keeps_lock w tag
  | staleTagExpiry tag => exact execStaleTagExpiry_keeps_lock w tag
  | staleResponse tag => exact execStaleResponse_keeps_lock w tag
  | busGrant => exact execBusGrant_keeps_lock w
  | turnOffWaitEnd => exact execTurnOffWaitEnd_keeps_lock w
  | openPhaseEnd hold response => exact execOpenPhaseEnd_keeps_lock w hold response
  | beatEnd hold flow lines => exact execBeatEnd_keeps_lock w hold flow lines
  | holdDrop response flow lines => exact execHoldDrop_keeps_lock w response flow lines
  | holdTimeout => exact execHoldTimeout_keeps_lock w
  | retryTimerDue | pollTimerDue | flowTimerDue => exact w.timerDue.next
  | completionHandoff c => exact execCompletionHandoff_keeps_lock w c
  | dataWriteIssued => exact execDataWriteIssued_keeps_lock w
  | messageIssued => exact execMessageIssued_keeps_lock w
  | delayTimerDue q => exact execDelayTimerDue_keeps_lock w q
  | controlReadError => exact execControlReadError_keeps_lock w
  | qryq => exact (w.takeSlot fun held => held.of_locks (locks_runQryq ..)).next
  | unknownCommand | mark => exact (w.takeSlot fun held => .controlDone held).next
  | cfgq => exact (w.takeSlot fun held => held.of_locks (locks_runCfgq ..)).next
  | enq => exact (w.takeSlot fun held => held.of_locks (locks_runEnq ..)).next
  | disq => exact (w.takeSlot .runDisq).next
  | abt => exact (w.takeSlot .runAbt).next
  | invp => exact (w.takeSlot fun held => held.of_locks (locks_runInvp ..)).next
  | rlst => exact (w.takeSlot fun held => held.of_locks (locks_runRlst ..)).next
  | rstt => exact (w.takeSlot fun held => held.of_locks (locks_runRstt ..)).next
  | pulseEnd => exact execPulseEnd_keeps_lock w
  | powerOnPulseEnd => exact execPowerOnPulseEnd_keeps_lock w

end

/-- Settles O13: a held row, carried through every operation that a command but a reset and the issue of an entry calls. -/
theorem lockHeldUntilEntryIssued : Obligations.LockHeldUntilEntryIssued := by
  intro c s s' t h keeps answer held
  obtain ⟨u, next, locked⟩ := exec_keeps_lock (State.LockedBy.mk held) keeps
  cases answer.symm.trans next
  exact locked.row

end Sys2Proof.Machine
end

section
/-! PROOFS. An evaluation of the Lock Table grants a set whole, in the order of the list (R104 to R107): what the visit of the
waiters leaves in the list, and what it gives to those that left. -/

namespace Sys2Proof.Machine

/-! ### Conditions that fail stay failed -/

/-- Between `s` and `t` rows and chunks have only been taken, and the bus stands. -/
structure State.OnlyTakes (s t : State) : Prop where
  rows : ∀ j : TargetId, t.locks.rows[j] = none → s.locks.rows[j] = none
  chunks : ∀ (k : ChunkId) (h : ChunkHold), s.pool.chunks[k] = some h → t.pool.chunks[k] = some h
  bus : t.bus = s.bus

theorem State.OnlyTakes.openFor {s t : State} (takes : s.OnlyTakes t) {l : List LockWaiter} {w : LockWaiter} {j : TargetId}
    (o : t.OpenFor l w j) : s.OpenFor l w j where
  row := takes.rows j o.row
  unnamed := o.unnamed
  chunks k h held := o.chunks k h (takes.chunks k h held)
  access a running := o.access a (takes.bus ▸ running)

/-- Whoever meets the conditions later met them before. -/
theorem State.OnlyTakes.lockPasses {s t : State} (takes : s.OnlyTakes t) {l : List LockWaiter} {w : LockWaiter}
    (passes : t.lockPasses l w = true) : s.lockPasses l w = true :=
  (s.lockPasses_iff l w).mpr fun j named => takes.openFor ((t.lockPasses_iff l w).mp passes j named)

theorem onlyTakes_lockGrant (s : State) (w : LockWaiter) : s.OnlyTakes (s.lockGrant w) where
  rows j free := by
    by_cases named : w.set.getLsbD j.val = true
    · rw [State.rows_lockGrant, if_pos named] at free
      cases free
    · rwa [State.rows_lockGrant, if_neg named] at free
  chunks k h held := by rw [State.lockGrant, State.modCtx_pool, State.modLocks_pool, held]
  bus := congrArg Outside.bus (outside_lockGrant s w)

theorem onlyTakes_reclaim (s : State) : s.OnlyTakes s.reclaim where
  rows j free := by rwa [locks_reclaim] at free
  chunks := (grantsOnly_reclaim (p := fun _ => True) fun _ _ => trivial).stands
  bus := congrArg Outside.bus (outside_reclaim s)

/-- None of the members of a list meets the conditions, against those before it. -/
def State.NonePass (s : State) (l : List LockWaiter) : Prop :=
  ∀ before w behind, l = before ++ w :: behind → s.lockPasses before w = false

theorem State.NonePass.later {s t : State} (takes : s.OnlyTakes t) {l : List LockWaiter} (none_ : s.NonePass l) :
    t.NonePass l := fun before w behind split => by
  have failed := none_ before w behind split
  exact Bool.eq_false_iff.mpr fun passes => Bool.eq_false_iff.mp failed (takes.lockPasses passes)

theorem State.NonePass.append {s : State} {l : List LockWaiter} {w : LockWaiter} (none_ : s.NonePass l)
    (fails : ¬ s.lockPasses l w = true) : s.NonePass (l ++ [w]) := by
  intro before v behind split
  rcases List.eq_nil_or_concat behind with rfl | ⟨rest, last, rfl⟩
  · obtain ⟨rfl, same⟩ := List.append_inj' split rfl
    cases same
    exact Bool.eq_false_iff.mpr fails
  · rw [List.concat_eq_append, ← List.cons_append, ← List.append_assoc] at split
    exact none_ before v rest (List.append_inj' split rfl).1

/-! ### A context that has been granted its set -/

/-- A change of one context that leaves its state leaves that of every context. -/
theorem state_modCtx (s : State) (c d : CtxId) (f : Context → Context) (same : (f (s.ctx c)).state = (s.ctx c).state) :
    ((s.modCtx c f).ctx d).state = (s.ctx d).state := by
  by_cases e : d = c
  · rw [e, State.ctx_modCtx_self, same]
  · rw [State.ctx_modCtx_ne _ _ e]

theorem state_claimFirst (d : CtxId) (s : State) (c : CtxId) : ((s.claimFirst c).ctx d).state = (s.ctx d).state := by
  have granted (k : ChunkId) : ((s.grantFirst c k).ctx d).state = (s.ctx d).state := by
    unfold State.grantFirst
    split
    · next o g _ _ =>
      have contexts : (s.grantChunk c k .current o g).1.ctx d = s.ctx d := by
        unfold State.grantChunk
        dsimp only
        split <;> rfl
      split
      · rfl
      · exact (state_modCtx _ _ _ _ rfl).trans (congrArg Context.state contexts)
    · rfl
  unfold State.claimFirst
  dsimp only
  split
  · exact state_modCtx _ _ _ _ rfl
  · split
    · exact state_modCtx _ _ _ _ rfl
    · split
      · exact granted _
      · exact state_modCtx _ _ _ _ rfl

/-- Claims made again move no context to another state (R120). -/
theorem state_reclaim (s : State) (d : CtxId) : (s.reclaim.ctx d).state = (s.ctx d).state :=
  foldl_keeps (fun u => (u.ctx d).state) _ (state_claimFirst d) _ _

/-- Context `w.context` has been granted `w`'s set: it is PREPARING and holds every target of the set (R106, R7). -/
structure State.Granted (s : State) (w : LockWaiter) : Prop where
  preparing : (s.ctx w.context).state = .preparing
  rows : ∀ j : TargetId, w.set.getLsbD j.val = true → s.locks.rows[j] = some w.context

theorem granted_lockGrant (s : State) (w : LockWaiter) : (s.lockGrant w).Granted w where
  preparing := by rw [State.lockGrant, State.ctx_modCtx_self]
  rows j named := by rw [State.rows_lockGrant, if_pos named]

theorem State.Granted.lockGrant {s : State} {w v : LockWaiter} {kept : List LockWaiter} (g : s.Granted w)
    (passes : s.lockPasses kept v = true) : (s.lockGrant v).Granted w where
  preparing := by
    by_cases e : w.context = v.context
    · rw [e, State.lockGrant, State.ctx_modCtx_self]
    · exact (congrArg Context.state (State.ctx_modCtx_ne _ _ e)).trans g.preparing
  rows j named := ((State.LockedBy.mk (g.rows j named)).lockGrant passes).row

theorem State.Granted.reclaim {s : State} {w : LockWaiter} (g : s.Granted w) : s.reclaim.Granted w where
  preparing := (state_reclaim s w.context).trans g.preparing
  rows j named := by rw [locks_reclaim, g.rows j named]

/-! ### The visit of the waiters (R105)

In a visit of the list `l`, `kept` are the members that have failed before it. -/

theorem State.Granted.lockVisit {s : State} {w : LockWaiter} (g : s.Granted w) (kept l : List LockWaiter) :
    (s.lockVisit kept l).Granted w := by
  induction l generalizing s kept with
  | nil => exact ⟨g.preparing, g.rows⟩
  | cons v rest ih =>
    by_cases passes : s.lockPasses kept v = true
    · rw [lockVisit_grants passes]
      exact ih (g.lockGrant passes) kept
    · rw [lockVisit_fails passes]
      exact ih g _

/-- The members that stay keep their order. -/
theorem waiters_lockVisit (s : State) (kept l : List LockWaiter) :
    ∃ stay, (s.lockVisit kept l).locks.waiters = kept ++ stay ∧ stay.Sublist l := by
  induction l generalizing s kept with
  | nil => exact ⟨[], (List.append_nil kept).symm, .slnil⟩
  | cons v rest ih =>
    by_cases passes : s.lockPasses kept v = true
    · rw [lockVisit_grants passes]
      obtain ⟨stay, list, sub⟩ := ih (s.lockGrant v) kept
      exact ⟨stay, list, sub.cons v⟩
    · rw [lockVisit_fails passes]
      obtain ⟨stay, list, sub⟩ := ih s (kept ++ [v])
      exact ⟨v :: stay, by rw [list, List.append_assoc, List.singleton_append], sub.cons_cons v⟩

/-- No member that stays meets the conditions. -/
theorem nonePass_lockVisit {s : State} {kept : List LockWaiter} (l : List LockWaiter) (none_ : s.NonePass kept) :
    (s.lockVisit kept l).NonePass (s.lockVisit kept l).locks.waiters := by
  induction l generalizing s kept with
  | nil => exact none_.later ⟨fun _ => id, fun _ _ => id, rfl⟩
  | cons v rest ih =>
    by_cases passes : s.lockPasses kept v = true
    · rw [lockVisit_grants passes]
      exact ih (none_.later (onlyTakes_lockGrant s v))
    · rw [lockVisit_fails passes]
      exact ih (none_.append passes)

/-- A grant to `v` takes the rows of its set, so who meets the conditions after it names none of them and meets the conditions
with `v` still before it in the list. -/
theorem lockPasses_of_lockGrant {s : State} {kept before : List LockWaiter} {v w : LockWaiter}
    (passes : (s.lockGrant v).lockPasses (kept ++ before) w = true) : s.lockPasses (kept ++ v :: before) w = true := by
  rw [State.lockPasses_iff] at passes ⊢
  intro j named
  have later := passes j named
  have o := (onlyTakes_lockGrant s v).openFor later
  have row := later.row
  rw [State.rows_lockGrant] at row
  have unshared : v.set.getLsbD j.val = false := Bool.eq_false_iff.mpr fun shared => by simp [shared] at row
  refine ⟨o.row, fun u member => ?_, o.chunks, o.access⟩
  rcases List.mem_append.mp member with early | late
  · exact o.unnamed u (List.mem_append_left _ early)
  · rcases List.mem_cons.mp late with rfl | late
    · exact unshared
    · exact o.unnamed u (List.mem_append_right _ late)

/-- A member that has left met the conditions against every member that stood before it, and has been granted its set. -/
theorem left_lockVisit {s : State} {kept l before behind : List LockWaiter} {w : LockWaiter}
    (split : l = before ++ w :: behind) (left : w ∉ (s.lockVisit kept l).locks.waiters) :
    s.lockPasses (kept ++ before) w = true ∧ (s.lockVisit kept l).Granted w := by
  induction before generalizing s kept l with
  | nil =>
    subst split
    rw [List.append_nil]
    by_cases passes : s.lockPasses kept w = true
    · exact ⟨passes, (lockVisit_grants passes).symm ▸ (granted_lockGrant s w).lockVisit kept behind⟩
    · obtain ⟨stay, list, _⟩ := waiters_lockVisit s (kept ++ [w]) behind
      rw [List.nil_append, lockVisit_fails passes, list] at left
      simp at left
  | cons v before ih =>
    subst split
    by_cases passes : s.lockPasses kept v = true
    · rw [List.cons_append, lockVisit_grants passes] at left ⊢
      obtain ⟨met, granted⟩ := ih rfl left
      exact ⟨lockPasses_of_lockGrant met, granted⟩
    · rw [List.cons_append, lockVisit_fails passes] at left ⊢
      obtain ⟨met, granted⟩ := ih rfl left
      exact ⟨by rwa [List.append_assoc] at met, granted⟩

/-- A row that changes was free and is given to a member that names it. -/
theorem rows_lockVisit (s : State) (kept l : List LockWaiter) (j : TargetId) :
    (s.lockVisit kept l).locks.rows[j] = s.locks.rows[j] ∨ (s.locks.rows[j] = none
      ∧ ∃ w ∈ l, w.set.getLsbD j.val = true ∧ (s.lockVisit kept l).locks.rows[j] = some w.context) := by
  induction l generalizing s kept with
  | nil => exact .inl rfl
  | cons v rest ih =>
    by_cases passes : s.lockPasses kept v = true
    · rw [lockVisit_grants passes]
      by_cases named : v.set.getLsbD j.val = true
      · have given := ((granted_lockGrant s v).lockVisit kept rest).rows j named
        exact .inr ⟨((s.lockPasses_iff kept v).mp passes j named).row, v, List.mem_cons_self, named, given⟩
      · have same : (s.lockGrant v).locks.rows[j] = s.locks.rows[j] := by rw [State.rows_lockGrant, if_neg named]
        rw [← same]
        exact (ih (s.lockGrant v) kept).imp_right fun ⟨free, w, member, given⟩ =>
          ⟨free, w, List.mem_cons_of_mem v member, given⟩
    · rw [lockVisit_fails passes]
      exact (ih s (kept ++ [v])).imp_right fun ⟨free, w, member, given⟩ =>
        ⟨free, w, List.mem_cons_of_mem v member, given⟩

/-! ### An evaluation (R105, R110) -/

theorem lockEvaluate_resetting {s : State} (h : s.regs.resetting = true) : s.lockEvaluate = s := if_pos h

/-- What an evaluation brings about: the visit, after which the Staging Pool's refused members may claim again. -/
theorem lockEvaluate_running {s : State} (h : s.regs.resetting = false) :
    s.lockEvaluate = s.lockVisit [] s.locks.waiters ∨ s.lockEvaluate = (s.lockVisit [] s.locks.waiters).reclaim := by
  unfold State.lockEvaluate
  rw [if_neg (ne_true_of_eq_false h)]
  dsimp only
  split
  · exact .inr rfl
  · exact .inl rfl

section
variable {s : State} (running : s.regs.resetting = false)
include running

theorem locks_lockEvaluate : s.lockEvaluate.locks = (s.lockVisit [] s.locks.waiters).locks := by
  rcases lockEvaluate_running running with e | e
  · rw [e]
  · rw [e, locks_reclaim]

theorem nonePass_lockEvaluate : s.lockEvaluate.NonePass s.lockEvaluate.locks.waiters := by
  have visited : (s.lockVisit [] s.locks.waiters).NonePass (s.lockVisit [] s.locks.waiters).locks.waiters :=
    nonePass_lockVisit _ fun before w behind split => by simp at split
  rw [locks_lockEvaluate running]
  rcases lockEvaluate_running running with e | e
  · rw [e]
    exact visited
  · rw [e]
    exact visited.later (onlyTakes_reclaim _)

theorem granted_lockEvaluate {w : LockWaiter} (g : (s.lockVisit [] s.locks.waiters).Granted w) :
    s.lockEvaluate.Granted w := by
  rcases lockEvaluate_running running with e | e
  · rw [e]
    exact g
  · rw [e]
    exact g.reclaim

end

/-! ### Ages and the place of a joining context (R104, Ages) -/

/-- Among sequence numbers of half the space from `b` on, older is nearer to `b`. -/
theorem older_iff_of_window {a c b : BitVec 32} (ha : (a - b).toNat < 2 ^ 31) (hc : (c - b).toNat < 2 ^ 31) :
    older a c = true ↔ (a - b).toNat < (c - b).toNat := by
  have apart : c - a = (c - b) - (a - b) := by
    simp only [BitVec.sub_eq_add_neg, BitVec.neg_add, BitVec.neg_neg]
    rw [BitVec.add_assoc, ← BitVec.add_assoc (-b), BitVec.add_comm (-b), BitVec.add_assoc (-a),
      BitVec.add_left_neg, BitVec.add_zero]
  rw [older, decide_eq_true_eq, apart]
  generalize a - b = x at *
  generalize c - b = y at *
  rw [BitVec.toNat_sub]
  omega

theorem insertWaiter_before {w v : LockWaiter} {rest : List LockWaiter} (h : older w.seq v.seq = true) :
    insertWaiter w (v :: rest) = w :: v :: rest := if_pos h

theorem insertWaiter_after {w v : LockWaiter} {rest : List LockWaiter} (h : ¬ older w.seq v.seq = true) :
    insertWaiter w (v :: rest) = v :: insertWaiter w rest := if_neg h

/-- In a list in order of age a joining member stands behind every older one and before every younger one. -/
theorem insertWaiter_place {l : List LockWaiter} {w : LockWaiter} {b : BitVec 32}
    (window : ∀ v ∈ w :: l, (v.seq - b).toNat < 2 ^ 31) (ordered : l.Pairwise fun u v => older u.seq v.seq = true) :
    ∃ before behind, l = before ++ behind ∧ insertWaiter w l = before ++ w :: behind
      ∧ (∀ v ∈ before, older w.seq v.seq = false) ∧ ∀ v ∈ behind, older w.seq v.seq = true := by
  induction l with
  | nil => exact ⟨[], [], rfl, rfl, List.forall_mem_nil _, List.forall_mem_nil _⟩
  | cons v rest ih =>
    obtain ⟨hw, hv, hrest⟩ : (w.seq - b).toNat < 2 ^ 31 ∧ (v.seq - b).toNat < 2 ^ 31
        ∧ ∀ u ∈ rest, (u.seq - b).toNat < 2 ^ 31 := by simpa using window
    obtain ⟨first, tail⟩ := List.pairwise_cons.mp ordered
    by_cases here : older w.seq v.seq = true
    · refine ⟨[], v :: rest, rfl, insertWaiter_before here, List.forall_mem_nil _,
        List.forall_mem_cons.mpr ⟨here, fun u member => ?_⟩⟩
      have younger := (older_iff_of_window hv (hrest u member)).mp (first u member)
      exact (older_iff_of_window hw (hrest u member)).mpr (Nat.lt_trans ((older_iff_of_window hw hv).mp here) younger)
    · obtain ⟨before, behind, split, placed, not_older, is_older⟩ := ih (List.forall_mem_cons.mpr ⟨hw, hrest⟩) tail
      exact ⟨v :: before, behind, by rw [split, List.cons_append], by rw [insertWaiter_after here, placed, List.cons_append],
        List.forall_mem_cons.mpr ⟨Bool.eq_false_iff.mpr here, not_older⟩, is_older⟩

/-- Settles O15: the conditions by their meaning, an evaluation by the visit of the list, a join by the order of ages. -/
theorem lockSetsGrantedWhole : Obligations.LockSetsGrantedWhole := by
  refine ⟨?conditions, ?evaluation, fun s => lockEvaluate_resetting, fun l w b => insertWaiter_place, fun s c => rfl⟩
  case conditions =>
    intro s l w
    simp only [State.lockPasses_iff, State.openFor_iff]
  case evaluation =>
    intro s running
    have locks := locks_lockEvaluate running
    obtain ⟨stay, list, sub⟩ := waiters_lockVisit s [] s.locks.waiters
    refine ⟨?order, nonePass_lockEvaluate running, ?left, ?rows, outside_lockEvaluate s⟩
    case order =>
      rw [locks, list]
      exact sub
    case left =>
      intro before w behind split left
      rw [locks] at left
      obtain ⟨met, granted⟩ := left_lockVisit split left
      exact ⟨met, (granted_lockEvaluate running granted).preparing, (granted_lockEvaluate running granted).rows⟩
    case rows =>
      intro j changed
      rw [locks] at changed ⊢
      exact (rows_lockVisit s [] s.locks.waiters j).resolve_left changed

end Sys2Proof.Machine
end

section
/-! PROOFS. The operations of the other blocks that leave the Staging Pool, or its chunks, as they are. -/

namespace Sys2Proof.Machine

/-! ### Transaction Engine and Staging Pool -/

@[simp] theorem pool_joinRow (s : State) (c : CtxId) (t : TargetId) : (s.joinRow c t).pool = s.pool := by
  unfold State.joinRow
  split <;> rfl

@[simp] theorem pool_lookup (s : State) (c : CtxId) (t : TargetId) (second : Bool) :
    (s.lookup c t second).pool = s.pool := by
  unfold State.lookup
  split
  · split <;> rfl
  · exact pool_joinRow ..

@[simp] theorem pool_readAgain (s : State) (c : CtxId) (k : ChunkId) (o : Op) (g : Segment) :
    (s.readAgain c k o g).1.pool = s.pool := by
  unfold State.readAgain
  dsimp only
  split <;> rfl

/-- A context that completes leaves the lists of the pool, and its chunks stand (R123). -/
@[simp] theorem chunks_finishAbort (s : State) (c : CtxId) : (s.finishAbort c).pool.chunks = s.pool.chunks := by
  unfold State.finishAbort
  split <;> rfl

@[simp] theorem chunks_nextOp (s : State) (c : CtxId) : (s.nextOp c).pool.chunks = s.pool.chunks := by
  unfold State.nextOp
  dsimp only
  repeat' split
  all_goals rfl

/-! ### Queue Manager, Record Fetcher and Control Unit -/

@[simp] theorem pool_handWrite (s : State) (w : PostedWrite) : (s.handWrite w).pool = s.pool := rfl

@[simp] theorem pool_popWrite (s : State) : s.popWrite.pool = s.pool := rfl

@[simp] theorem pool_oweMessage (s : State) (q : QueueId) : (s.oweMessage q).pool = s.pool := by
  unfold State.oweMessage
  repeat' split
  all_goals rfl

@[simp] theorem pool_oweNotice (s : State) : s.oweNotice.pool = s.pool := by
  unfold State.oweNotice
  repeat' split
  all_goals rfl

@[simp] theorem pool_moderate (s : State) (q : QueueId) (irqNow : Bool) : (s.moderate q irqNow).pool = s.pool := by
  unfold State.moderate
  dsimp only
  split
  · exact pool_oweMessage ..
  · split <;> rfl

@[simp] theorem pool_writeIrqEnable (s : State) (on : Bool) : (s.writeIrqEnable on).pool = s.pool := by
  unfold State.writeIrqEnable
  dsimp only
  split
  · refine foldl_keeps State.pool _ (fun u q => ?_) _ _
    split
    · exact pool_oweMessage u q
    · rfl
  · rfl

@[simp] theorem pool_visitQueue (s : State) (q : QueueId) : (s.visitQueue q).pool = s.pool := by
  unfold State.visitQueue
  repeat' split
  all_goals rfl

@[simp] theorem pool_fetchEvaluate (s : State) : s.fetchEvaluate.pool = s.pool := by
  unfold State.fetchEvaluate
  split
  · rfl
  · exact foldl_keeps State.pool _ (fun _ _ => pool_visitQueue _ _) _ _

@[simp] theorem pool_halt (s : State) (q : QueueId) (why : HaltReason) : (s.halt q why).pool = s.pool :=
  pool_oweNotice _

@[simp] theorem pool_disable (s : State) (q : QueueId) : (s.disable q).pool = s.pool := by
  unfold State.disable
  dsimp only
  split
  · exact pool_oweMessage ..
  · rfl

@[simp] theorem pool_stopQueue (s : State) (q : QueueId) : (s.stopQueue q).pool = s.pool := by
  unfold State.stopQueue
  split <;> rfl

@[simp] theorem pool_controlTest (s : State) : s.controlTest.pool = s.pool := by
  unfold State.controlTest
  dsimp only
  repeat' split
  all_goals rfl

@[simp] theorem pool_controlDone (s : State) (e : Entry) : (s.controlDone e).pool = s.pool := rfl

@[simp] theorem pool_runCfgq (s : State) (r : ControlRecord) : (s.runCfgq r).pool = s.pool := by
  unfold State.runCfgq
  repeat' split
  all_goals rfl

@[simp] theorem pool_runEnq (s : State) (r : ControlRecord) : (s.runEnq r).pool = s.pool := by
  unfold State.runEnq
  repeat' split
  all_goals simp

@[simp] theorem pool_runQryq (s : State) (r : ControlRecord) : (s.runQryq r).pool = s.pool := by
  unfold State.runQryq
  split <;> rfl

@[simp] theorem pool_runRlst (s : State) (r : ControlRecord) : (s.runRlst r).pool = s.pool := by
  unfold State.runRlst
  split <;> rfl

@[simp] theorem pool_pulseBegin (s : State) : s.pulseBegin.pool = s.pool := by
  rw [State.pulseBegin, State.mapContexts_pool, State.modBus_pool]

@[simp] theorem pool_pulseRequest (s : State) : s.pulseRequest.pool = s.pool := by
  unfold State.pulseRequest
  dsimp only
  split <;> simp

@[simp] theorem pool_runRstt (s : State) (r : ControlRecord) : (s.runRstt r).pool = s.pool := by
  unfold State.runRstt
  split
  · rfl
  · exact pool_pulseRequest _

@[simp] theorem pool_nextPulse (s : State) : s.nextPulse.pool = s.pool := by
  unfold State.nextPulse
  split <;> simp

@[simp] theorem pool_takeEnable (s : State) : s.takeEnable.pool = s.pool := pool_controlTest _

@[simp] theorem pool_indexErrorSeen (s : State) (kind : IndexErrorKind) (queue : BitVec 4) :
    (s.indexErrorSeen kind queue).pool = s.pool := by
  unfold State.indexErrorSeen
  split
  · rfl
  · exact pool_oweNotice _

@[simp] theorem pool_tailTaken (s : State) (q : QueueId) : (s.tailTaken q).pool = s.pool := by
  unfold State.tailTaken
  split
  · rw [pool_controlTest]
    split <;> rfl
  · exact pool_fetchEvaluate s

@[simp] theorem pool_roomMade (s : State) (q : QueueId) : (s.roomMade q).pool = s.pool := by
  unfold State.roomMade
  split
  · split
    · exact pool_controlTest _
    · rfl
  · exact pool_fetchEvaluate s

/-! ### Profile Cache and target bus -/

@[simp] theorem pool_windowInvalidate (s : State) (t : TargetId) : (s.windowInvalidate t).pool = s.pool := by
  unfold State.windowInvalidate
  dsimp only
  repeat' split
  all_goals rfl

@[simp] theorem pool_invalidate (s : State) (t : TargetId) : (s.invalidate t).pool = s.pool := by
  simp [State.invalidate, State.modRow, State.emptyEntry]

@[simp] theorem pool_invalidateAll (s : State) : s.invalidateAll.pool = s.pool :=
  foldl_keeps State.pool _ pool_invalidate _ _

@[simp] theorem pool_runInvp (s : State) (r : ControlRecord) : (s.runInvp r).pool = s.pool := by
  unfold State.runInvp
  repeat' split
  all_goals simp

@[simp] theorem pool_fill (s : State) (t : TargetId) (p : Profile) : (s.fill t p).pool = s.pool := by
  unfold State.fill
  simp only [State.touch, State.modCache_pool]
  split <;> simp

@[simp] theorem pool_quarantine (s : State) (t : TargetId) (tag : BitVec 16) (q : QueueId) :
    (s.quarantine t tag q).pool = s.pool := by
  rw [State.quarantine, State.mapContexts_pool]

@[simp] theorem pool_startFirstPhase (s : State) (a : Access) : (s.startFirstPhase a).pool = s.pool := by
  unfold State.startFirstPhase
  split <;> rfl

/-- The bytes of a read beat may go to the staging memory, and to no chunk's hold (R50). -/
@[simp] theorem chunks_storeBeat (s : State) (a : Access) (lines : BitVec 32) :
    (s.storeBeat a lines).pool.chunks = s.pool.chunks := by
  unfold State.storeBeat
  dsimp only
  repeat' split
  all_goals rfl

@[simp] theorem pool_handData (s : State) (c : CtxId) (o : Op) (g : Segment) (moved : Nat) :
    (s.handData c o g moved).pool = s.pool := by
  unfold State.handData
  split
  · rfl
  · split
    · rfl
    · exact foldl_keeps State.pool _ (fun _ _ => pool_handWrite _ _) _ _

@[simp] theorem pool_countShort (s : State) (c : CtxId) (o : Op) (g : Segment) (moved : Nat) :
    (s.countShort c o g moved).pool = s.pool := by
  unfold State.countShort
  dsimp only
  repeat' split
  all_goals simp

@[simp] theorem chunks_ownerPrepares (s : State) (c : CtxId) : (s.ownerPrepares c).pool.chunks = s.pool.chunks := by
  unfold State.ownerPrepares
  split <;> rfl

@[simp] theorem chunks_ownerWaits (s : State) (c : CtxId) (k : TimerKind) (due : Nat) :
    (s.ownerWaits c k due).pool.chunks = s.pool.chunks := by
  unfold State.ownerWaits
  split <;> rfl

/-! ### Host reads -/

@[simp] theorem pool_issueRead (s : State) (i : TagId) (k : ReqClass) (r : ReadReq) :
    (s.issueRead i k r).pool = s.pool := by
  unfold State.issueRead State.countIssued
  split <;> rfl

@[simp] theorem pool_overtakenRead (s : State) (c : CtxId) (k : ChunkId) (role : Role) (g : Segment) (failed : Bool) :
    (s.overtakenRead c k role g failed).pool = s.pool := by
  unfold State.overtakenRead
  dsimp only
  repeat' split
  all_goals rfl

/-- The bytes of a data read go to the staging memory, and to no chunk's hold (R125). -/
@[simp] theorem chunks_segmentRead (s : State) (c : CtxId) (k : ChunkId) (role : Role) (g : Segment) (place : Nat)
    (r : Response) : (s.segmentRead c k role g place r).pool.chunks = s.pool.chunks := by
  unfold State.segmentRead
  split
  · exact congrArg Pool.chunks (pool_overtakenRead ..)
  · split <;> rfl

@[simp] theorem chunks_afterDataRead (s : State) (c : CtxId) :
    (s.afterDataRead c).pool.chunks = s.pool.chunks := by
  unfold State.afterDataRead
  dsimp only
  repeat' split
  all_goals simp

end Sys2Proof.Machine
end

section
/-! PROOFS. No context comes to hold a third chunk (R117): a grant is made only where one chunk at most is held, and every other
operation of the model leaves a chunk with its holder or frees it. -/

namespace Sys2Proof.Machine

/-- No context holds more than two chunks (R117). -/
structure State.FewChunks (s : State) : Prop where
  bound : ∀ c, (s.chunksOf c).length ≤ 2

/-! ### The chunks a context holds -/

theorem State.nodup_chunksOf (s : State) (c : CtxId) : (s.chunksOf c).Nodup := (List.nodup_finRange 24).filter _

theorem State.mem_chunksOf_setChunk (s : State) (k j : ChunkId) (v : Option ChunkHold) (c : CtxId) :
    j ∈ (s.setChunk k v).chunksOf c ↔ if j = k then ∃ h, v = some h ∧ h.context = c else j ∈ s.chunksOf c := by
  rw [State.mem_chunksOf, State.chunk_setChunk]
  split
  · rfl
  · rw [State.mem_chunksOf]

/-- A chunk held is held by one context (R117). -/
theorem State.chunk_free_or_held (s : State) (k : ChunkId) :
    s.pool.chunks[k] = none ∨ ∃ c, ∀ d, k ∈ s.chunksOf d ↔ d = c := by
  cases held : s.pool.chunks[k] with
  | none => exact .inl rfl
  | some h =>
    refine .inr ⟨h.context, fun d => ?_⟩
    simp only [State.mem_chunksOf, held, Option.some.injEq, exists_eq_left', eq_comm]

theorem State.mem_chunksOf_of_chunkWith {s : State} {c : CtxId} {r : Role} {k : ChunkId} (h : s.chunkWith c r = some k) :
    k ∈ s.chunksOf c := by
  have found := List.find?_some h
  simp only [Option.any_eq_true, Bool.and_eq_true, beq_iff_eq] at found
  obtain ⟨hold, held, owner, -⟩ := found
  exact (s.mem_chunksOf c k).mpr ⟨hold, held, owner⟩

namespace State.FewChunks
variable {s : State}

theorem of_chunks {u : State} (w : s.FewChunks) (same : u.pool.chunks = s.pool.chunks) : u.FewChunks :=
  ⟨fun c => by rw [State.chunksOf, same]; exact w.bound c⟩

theorem of_pool {u : State} (w : s.FewChunks) (same : u.pool = s.pool) : u.FewChunks :=
  w.of_chunks (congrArg Pool.chunks same)

/-- Of two outcomes of a test both keep the law. -/
theorem ite {p : Prop} [Decidable p] {u v : State} (yes : u.FewChunks) (no : v.FewChunks) :
    (if p then u else v).FewChunks := by
  split
  · exact yes
  · exact no

/-- A fold keeps the law when each of its steps does. -/
theorem foldl {α : Type} {f : State → α → State} {l : List α} (w : s.FewChunks)
    (each : ∀ {u : State} {a : α}, u.FewChunks → (f u a).FewChunks) : (l.foldl f s).FewChunks :=
  List.foldlRecOn (motive := State.FewChunks) l f w fun _ few _ _ => each few

theorem modCtx {c : CtxId} {f : Context → Context} (w : s.FewChunks) : (s.modCtx c f).FewChunks := w.of_pool rfl

theorem modControl {f : ControlUnit → ControlUnit} (w : s.FewChunks) : (s.modControl f).FewChunks := w.of_pool rfl

theorem controlDone {e : Entry} (w : s.FewChunks) : (s.controlDone e).FewChunks := w.of_pool rfl

theorem controlTest (w : s.FewChunks) : s.controlTest.FewChunks := w.of_pool (pool_controlTest s)

theorem fetchEvaluate (w : s.FewChunks) : s.fetchEvaluate.FewChunks := w.of_pool (pool_fetchEvaluate s)

theorem freeContext {q : QueueId} {c : CtxId} (w : s.FewChunks) : (s.freeContext q c).FewChunks := w.of_pool rfl

theorem halt {q : QueueId} {why : HaltReason} (w : s.FewChunks) : (s.halt q why).FewChunks := w.of_pool (pool_halt ..)

theorem disable {q : QueueId} (w : s.FewChunks) : (s.disable q).FewChunks := w.of_pool (pool_disable ..)

/-! ### A chunk freed, held on, or granted -/

/-- A chunk is freed, or goes on with a hold of the context that holds it. -/
theorem setChunk {k : ChunkId} {v : Option ChunkHold} (w : s.FewChunks)
    (owner : ∀ h, v = some h → k ∈ s.chunksOf h.context) : (s.setChunk k v).FewChunks := by
  refine ⟨fun c => Nat.le_trans (List.Nodup.length_le_of_subset (State.nodup_chunksOf _ c) fun j member => ?_) (w.bound c)⟩
  rw [State.mem_chunksOf_setChunk] at member
  split at member
  · next jk =>
    obtain ⟨h, is, rfl⟩ := member
    exact jk ▸ owner h is
  · exact member

theorem freed {k : ChunkId} (w : s.FewChunks) : (s.setChunk k none).FewChunks := w.setChunk fun _ e => nomatch e

/-- A chunk is granted to a context that holds one at most. -/
theorem granted {k : ChunkId} {h : ChunkHold} (w : s.FewChunks) (fewer : (s.chunksOf h.context).length < 2) :
    (s.setChunk k (some h)).FewChunks := by
  refine ⟨fun c => ?_⟩
  have sub : (s.setChunk k (some h)).chunksOf c ⊆ if h.context = c then k :: s.chunksOf c else s.chunksOf c := by
    intro j member
    rw [State.mem_chunksOf_setChunk] at member
    split at member
    · next jk =>
      obtain ⟨g, is, owner⟩ := member
      rw [if_pos (Option.some.inj is ▸ owner), jk]
      exact List.mem_cons_self
    · split
      · exact List.mem_cons_of_mem k member
      · exact member
  refine Nat.le_trans ((State.nodup_chunksOf _ c).length_le_of_subset sub) ?_
  split
  · next owner => exact owner ▸ fewer
  · exact w.bound c

/-! ### Staging Pool and Lock Table -/

theorem grantFirst {c : CtxId} {k : ChunkId} (w : s.FewChunks) : (s.grantFirst c k).FewChunks := by
  unfold State.grantFirst
  split
  · split
    · exact w
    · next fewer => exact .modCtx (.of_pool (w.granted (Nat.not_le.mp fewer)) (pool_grantChunk ..))
  · exact w

theorem claimFirst {c : CtxId} (w : s.FewChunks) : (s.claimFirst c).FewChunks := by
  unfold State.claimFirst
  dsimp only
  split
  · exact w.of_pool rfl
  · split
    · exact w.of_chunks rfl
    · split
      · exact w.grantFirst
      · exact w.of_chunks rfl

theorem claimSecond {c : CtxId} (w : s.FewChunks) : (s.claimSecond c).FewChunks := by
  unfold State.claimSecond
  dsimp only
  split
  · split
    · next asks =>
      split
      · simp only [Bool.and_eq_true, beq_iff_eq] at asks
        obtain ⟨⟨⟨_, one⟩, _⟩, _⟩ := asks
        exact .modCtx (.of_pool (w.granted (one ▸ Nat.one_lt_two)) (pool_grantChunk ..))
      · exact w
    · exact w
  · exact w

theorem reclaim (w : s.FewChunks) : s.reclaim.FewChunks := .foldl (w.of_chunks rfl) .claimFirst

theorem lockEvaluate (w : s.FewChunks) : s.lockEvaluate.FewChunks := by
  have visited : (s.lockVisit [] s.locks.waiters).FewChunks := w.of_pool (pool_lockVisit ..)
  unfold State.lockEvaluate
  exact .ite w (.ite visited.reclaim visited)

theorem lockJoin {c : CtxId} (w : s.FewChunks) : (s.lockJoin c).FewChunks := .lockEvaluate (w.of_pool rfl)

theorem lockLeave {c : CtxId} (w : s.FewChunks) : (s.lockLeave c).FewChunks :=
  .reclaim (.lockEvaluate (w.of_pool rfl))

theorem lockRelease {c : CtxId} (w : s.FewChunks) : (s.lockRelease c).FewChunks :=
  .reclaim (.lockEvaluate (w.of_pool (State.modLocks_pool ..)))

theorem offer {k : ChunkId} {l : List Claim} (w : s.FewChunks) : (s.offer k l).FewChunks := by
  induction l generalizing s with
  | nil => exact w.of_chunks rfl
  | cons m rest ih =>
    unfold State.offer
    exact .ite (.grantFirst (w.of_chunks rfl)) (ih (w.of_chunks rfl))

theorem freeChunk {k : ChunkId} (w : s.FewChunks) : (s.freeChunk k).FewChunks := by
  unfold State.freeChunk
  split
  · exact w
  · next h _ =>
    have evaluated : ((s.setChunk k none).wake h.context).lockEvaluate.FewChunks :=
      .lockEvaluate (w.freed.of_pool (pool_wake _ _))
    exact .ite evaluated.offer evaluated

theorem freeIfDone {k : ChunkId} (w : s.FewChunks) : (s.freeIfDone k).FewChunks := by
  unfold State.freeIfDone
  split
  · exact w
  · exact .ite w.freeChunk w

theorem endChunk {k : ChunkId} (w : s.FewChunks) : (s.endChunk k).FewChunks := by
  unfold State.endChunk
  split
  · exact w
  · next h held =>
    have unlisted : (s.dropReads (·.isChunk k)).FewChunks := w.of_pool rfl
    refine .freeIfDone (unlisted.setChunk ?_)
    rintro _ ⟨⟩
    exact (State.mem_chunksOf _ _ k).mpr ⟨h, held, rfl⟩

theorem endRole {c : CtxId} {r : Role} (w : s.FewChunks) : (s.endRole c r).FewChunks := by
  unfold State.endRole
  split
  · exact w
  · exact w.endChunk

theorem discardStaged {c : CtxId} (w : s.FewChunks) : (s.discardStaged c).FewChunks := .endRole (w.of_pool rfl)

theorem freeChunksOf {c : CtxId} (w : s.FewChunks) : (s.freeChunksOf c).FewChunks := .foldl w .freeChunk

/-- The chunk a context holds with a role takes another. -/
theorem setRole {c : CtxId} {k : ChunkId} {r r' : Role} (w : s.FewChunks) (found : s.chunkWith c r = some k) :
    (s.setRole k r').FewChunks := by
  obtain ⟨hold, held, owner⟩ := (s.mem_chunksOf c k).mp (State.mem_chunksOf_of_chunkWith found)
  refine w.setChunk (v := s.pool.chunks[k].map fun h => { h with role := r' }) fun h e => ?_
  rw [held] at e
  obtain rfl := Option.some.inj e
  exact (s.mem_chunksOf _ k).mpr ⟨hold, held, rfl⟩

/-! ### Transaction Engine -/

theorem endOp {c : CtxId} {failure : Option Status} {bad : Bool} (w : s.FewChunks) :
    (s.endOp c failure bad).FewChunks := by
  have marked : (s.modCtx c fun x => x.opEnded failure bad).FewChunks := w.of_pool rfl
  have closed := marked.discardStaged (c := c) |>.endRole (c := c) (r := .current)
  unfold State.endOp
  dsimp only
  repeat' split
  · exact closed.of_chunks rfl
  · exact closed.of_chunks (chunks_nextOp ..)
  · exact closed.of_chunks rfl
  · exact closed.of_chunks (chunks_nextOp ..)

theorem failOp {c : CtxId} {code : Status} (w : s.FewChunks) : (s.failOp c code).FewChunks := w.endOp

theorem resetFails {c : CtxId} (w : s.FewChunks) : (s.resetFails c).FewChunks := by
  unfold State.resetFails
  exact .ite (w.of_pool rfl) (.failOp (w.of_pool rfl))

theorem prepReady {c : CtxId} (w : s.FewChunks) : (s.prepReady c).FewChunks := by
  unfold State.prepReady
  dsimp only
  split
  · exact w
  · exact .ite (w.of_pool rfl) (.ite w.resetFails (.ite w.failOp (w.of_pool rfl)))

theorem prepData {c : CtxId} (w : s.FewChunks) : (s.prepData c).FewChunks := by
  unfold State.prepData
  dsimp only
  split
  · exact .ite w.prepReady (.ite w.failOp (.ite (w.of_pool rfl) (.ite w.prepReady (w.of_pool rfl))))
  · exact w

theorem prepCut {c : CtxId} (w : s.FewChunks) : (s.prepCut c).FewChunks := by
  unfold State.prepCut
  dsimp only
  split
  · exact w
  · split
    · exact .prepReady (w.of_pool rfl)
    · split
      · exact .claimFirst (w.of_pool rfl)
      · next k found =>
        have held {h : ChunkHold} (owner : h.context = c) : (s.setChunk k (some h)).FewChunks :=
          w.setChunk fun _ e => Option.some.inj e ▸ owner ▸ State.mem_chunksOf_of_chunkWith found
        refine .prepData (.of_pool ?_ (State.modCtx_pool ..))
        split
        · exact (held rfl).of_pool (pool_readAgain ..)
        · exact held rfl

theorem prepChecks {c : CtxId} (w : s.FewChunks) : (s.prepChecks c).FewChunks := by
  unfold State.prepChecks
  dsimp only
  repeat' split
  · exact w
  · exact w.failOp
  · exact w.failOp
  · exact .prepCut (w.of_pool rfl)

theorem prepJudge {c : CtxId} {second : Bool} (w : s.FewChunks) : (s.prepJudge c second).FewChunks := by
  unfold State.prepJudge
  dsimp only
  split
  · split
    · exact w.failOp
    · exact w.endOp
    · exact .ite (w.of_pool (pool_lookup ..)) (.ite (w.of_pool rfl) w.prepChecks)
  · exact w.of_pool rfl

theorem prepLookup {c : CtxId} (w : s.FewChunks) : (s.prepLookup c).FewChunks := by
  unfold State.prepLookup
  dsimp only
  repeat' split
  · exact w
  · exact w.of_pool (pool_lookup ..)
  · exact w.of_pool (pool_lookup ..)

theorem prepStart {c : CtxId} (w : s.FewChunks) : (s.prepStart c).FewChunks := by
  unfold State.prepStart
  exact .ite w.resetFails w.prepLookup

theorem prepClaim {c : CtxId} (w : s.FewChunks) : (s.prepClaim c).FewChunks := by
  unfold State.prepClaim
  split
  · exact w
  · exact .ite w.claimFirst (w.of_pool rfl)

theorem prepare {c : CtxId} (w : s.FewChunks) : (s.prepare c).FewChunks := by
  unfold State.prepare
  split
  · exact w.prepStart
  · exact w.prepLookup
  · exact w.prepJudge
  · exact w.prepClaim
  · exact w.prepData
  · exact w

theorem settleFor {n : Nat} (w : s.FewChunks) : (s.settleFor n).FewChunks := by
  induction n generalizing s with
  | zero => exact w
  | succ n ih =>
    unfold State.settleFor
    split
    · exact w
    · exact ih w.prepare

theorem settle (w : s.FewChunks) : s.settle.FewChunks := by
  unfold State.settle
  exact .ite w w.settleFor

theorem abort {c : CtxId} (w : s.FewChunks) : (s.abort c).FewChunks := by
  unfold State.abort
  dsimp only
  cases (s.ctx c).state with
  | lockWait => exact .lockLeave (w.of_chunks rfl)
  | preparing =>
    dsimp only
    split
    · exact w.of_pool rfl
    · exact w.of_chunks (chunks_finishAbort ..)
  | free | loading | completing | onBus | fenceWait | busReady | timerWait => exact w.of_chunks rfl

/-! ### Fences and loads -/

theorem beginTransaction {c : CtxId} (w : s.FewChunks) : (s.beginTransaction c).FewChunks := by
  unfold State.beginTransaction
  exact .ite (w.of_pool rfl) w.lockJoin

theorem fenceTest {c : CtxId} (w : s.FewChunks) : (s.fenceTest c).FewChunks := by
  unfold State.fenceTest
  exact .ite w w.beginTransaction

theorem fenceRelease {q : QueueId} (w : s.FewChunks) : (s.fenceRelease q).FewChunks := .foldl w .fenceTest

theorem accept {c : CtxId} {ops : List Op} (w : s.FewChunks) : (s.accept c ops).FewChunks := by
  unfold State.accept
  exact .ite (.fenceTest (w.of_pool rfl)) (.beginTransaction (w.of_pool rfl))

theorem loadOutcome {c : CtxId} {how : LoadEnd} (w : s.FewChunks) : (s.loadOutcome c how).FewChunks := by
  unfold State.loadOutcome
  dsimp only
  split
  · exact w.of_chunks rfl
  · cases how with
    | short | extensionError => exact w.of_chunks rfl
    | allLoaded | oneSlot => exact .ite w.accept (w.of_chunks rfl)

theorem loadEnded {q : QueueId} {c : CtxId} {expected : Nat} {how : LoadEnd} (w : s.FewChunks) :
    (s.loadEnded q c expected how).FewChunks := by
  unfold State.loadEnded
  cases how with
  | short | extensionError => exact .halt (.loadOutcome (w.of_pool rfl))
  | allLoaded | oneSlot => exact .loadOutcome (w.of_pool rfl)

/-! ### Control Unit -/

theorem stopAndMark {q : QueueId} {abortMode : Bool} (w : s.FewChunks) : (s.stopAndMark q abortMode).FewChunks := by
  have stopped := w.of_pool (pool_stopQueue s q)
  unfold State.stopAndMark
  exact .ite (.foldl stopped .abort) stopped

theorem runDisq {r : ControlRecord} (w : s.FewChunks) : (s.runDisq r).FewChunks := by
  unfold State.runDisq
  dsimp only
  split
  · exact w.controlDone
  · exact .ite w.controlDone (.ite w.controlDone (.ite (.ite w.modControl (.modControl w.stopAndMark))
      (.controlDone (.disable w.stopAndMark))))

theorem runAbt {r : ControlRecord} (w : s.FewChunks) : (s.runAbt r).FewChunks := by
  unfold State.runAbt
  dsimp only
  split
  · exact w.controlDone
  · exact .ite w.controlDone (.controlDone (.foldl w .abort))

theorem retakeHeld (w : s.FewChunks) : s.retakeHeld.FewChunks := by
  unfold State.retakeHeld
  split
  · exact .controlTest (.ite (.runDisq w.modControl) (.of_pool w.modControl (pool_runRstt ..)))
  · exact w

theorem pendingDone {done rest : List PendingEntry} (w : s.FewChunks) : (s.pendingDone done rest).FewChunks := by
  unfold State.pendingDone
  exact .ite w (.retakeHeld (.foldl w.modControl .controlDone))

theorem queueTest {q : QueueId} (w : s.FewChunks) : (s.queueTest q).FewChunks := by
  unfold State.queueTest
  exact .ite (.pendingDone w.disable) w

/-- A control record is taken (R164). -/
theorem takeSlot {run : State → ControlRecord → State} {slot : List Byte} {isRow : Byte → Bool} (w : s.FewChunks)
    (runs : ∀ {u : State} {r : ControlRecord}, u.FewChunks → (run u r).FewChunks) :
    (s.takeSlot slot isRow run).FewChunks := by
  unfold State.takeSlot
  split
  · exact w
  · exact .ite w (.ite (w.of_pool rfl) (.settle (.controlTest (runs (w.of_pool rfl)))))

/-! ### Returns of host reads -/

theorem fetchEnded {q : QueueId} (w : s.FewChunks) : (s.fetchEnded q).FewChunks :=
  .settle w.queueTest.fetchEvaluate

theorem loadEnd {q : QueueId} {c : CtxId} {expected : Nat} {how : LoadEnd} (w : s.FewChunks) :
    (s.loadEnd q c expected how).FewChunks := .fetchEnded (.loadEnded w)

theorem headerReturned {q : QueueId} {c : CtxId} {r : Response} (w : s.FewChunks) :
    (s.headerReturned q c r).FewChunks := by
  unfold State.headerReturned
  dsimp only
  split
  · have freed : (((s.freeContext q c).giveBack q).setFetch q none).FewChunks := w.of_pool rfl
    exact .fetchEnded (.halt freed.fenceRelease)
  · exact .ite (.loadEnd (w.of_pool rfl)) (.ite (.loadEnd (w.of_pool rfl)) (.ite (.loadEnd (w.of_pool rfl)) (w.of_pool rfl)))

theorem extensionReturned {q : QueueId} {c : CtxId} {n : Nat} {r : Response} (w : s.FewChunks) :
    (s.extensionReturned q c n r).FewChunks := by
  unfold State.extensionReturned
  dsimp only
  split
  · exact w
  · split
    · exact .ite (.loadEnd (w.of_pool rfl)) (w.of_pool rfl)
    · exact .ite (.loadEnd (w.of_pool rfl)) (w.of_pool rfl)

theorem profileReturned {k : TargetId} {r : Response} (w : s.FewChunks) : (s.profileReturned k r).FewChunks := by
  unfold State.profileReturned
  dsimp only
  refine .settle (.foldl (.ite (.ite (w.of_pool rfl) (w.of_pool rfl)) ?_) fun few => few.of_chunks (chunks_finishAbort ..))
  split
  · exact .foldl (w.of_pool (pool_fill ..)) fun few => few.of_pool rfl
  · exact .foldl (w.of_pool rfl) .failOp

theorem chunkRead {c : CtxId} {k : ChunkId} {place : Nat} {r : Response} (w : s.FewChunks) :
    (s.chunkRead c k place r).FewChunks := by
  unfold State.chunkRead
  split
  · exact w
  · split
    · exact w.freeIfDone
    · refine .ite w ?_
      split
      · exact w
      · exact w.of_chunks (chunks_segmentRead ..)

theorem handResponse {ref : ReadRef} {r : Response} (w : s.FewChunks) : (s.handResponse ref r).FewChunks := by
  unfold State.handResponse
  split
  · exact w.headerReturned
  · exact w.extensionReturned
  · split
    · exact w.of_pool rfl
    · exact w
  · exact w.profileReturned
  · exact .settle (w.chunkRead.of_chunks (chunks_afterDataRead ..))

/-- A read returns (R160). -/
theorem readReturns {i : TagId} {r : Response} {ofRow : ReadRef → Bool} (w : s.FewChunks) :
    (s.readReturns i r ofRow).FewChunks := by
  unfold State.readReturns
  split
  · exact w
  · exact .ite w (.ite (w.of_pool rfl) (.handResponse (w.of_pool rfl)))

/-! ### Target bus -/

theorem nextSegmentBegins {c : CtxId} (w : s.FewChunks) : (s.nextSegmentBegins c).FewChunks := by
  unfold State.nextSegmentBegins
  refine .of_pool (.ite w.discardStaged ?_) (State.modCtx_pool ..)
  split
  · next found => exact w.setRole found
  · exact w

theorem segmentEnds {c : CtxId} (w : s.FewChunks) : (s.segmentEnds c).FewChunks := by
  have ended : (s.endRole c .current).FewChunks := w.endRole
  unfold State.segmentEnds
  dsimp only
  split
  · exact ended
  · exact .ite (.endOp (ended.of_pool rfl)) (.ite (ended.of_chunks rfl) ended.nextSegmentBegins)

theorem attemptEnds {c : CtxId} {o : Op} (w : s.FewChunks) : (s.attemptEnds c o).FewChunks := by
  unfold State.attemptEnds
  exact .ite (.endOp (w.of_pool rfl)) (.ite (.failOp (w.of_pool rfl)) (.ite (w.of_chunks (chunks_ownerPrepares ..))
    (w.of_chunks (chunks_ownerWaits ..))))

theorem ownerDone {c : CtxId} {o : Op} {g : Segment} {moved : Nat} (w : s.FewChunks) :
    (s.ownerDone c o g moved).FewChunks := by
  unfold State.ownerDone
  exact .ite w.attemptEnds (.ite (w.of_chunks (chunks_ownerPrepares ..))
    (.segmentEnds (.ite (w.of_pool (pool_handData ..)) (w.of_pool rfl))))

theorem ownerFlow {c : CtxId} {o : Op} {g : Segment} {moved : Nat} (w : s.FewChunks) :
    (s.ownerFlow c o g moved).FewChunks := by
  have counted : ((s.countShort c o g moved).discardStaged c).FewChunks := .discardStaged (w.of_pool (pool_countShort ..))
  unfold State.ownerFlow
  exact .ite counted.endOp (.ite (.failOp (counted.of_pool rfl)) (counted.of_chunks (chunks_ownerWaits ..)))

theorem ownerRetry {c : CtxId} {g : Segment} (w : s.FewChunks) : (s.ownerRetry c g).FewChunks := by
  have discarded : (s.discardStaged c).FewChunks := w.discardStaged
  unfold State.ownerRetry
  exact .ite (.failOp (discarded.of_pool rfl)) (discarded.of_chunks (chunks_ownerWaits ..))

theorem ownerRelease {c : CtxId} {t : TargetId} (w : s.FewChunks) : (s.ownerRelease c t).FewChunks := by
  have discarded : (s.discardStaged c).FewChunks := w.discardStaged
  have invalidated := discarded.of_pool (pool_invalidate ((s.discardStaged c).modCtx c fun x =>
    { x with releases := x.releases + 1 }) t)
  unfold State.ownerRelease
  exact .ite invalidated.failOp (invalidated.of_chunks (chunks_ownerPrepares ..))

theorem ownerEnd {a : Access} {how : AccessEnd} (w : s.FewChunks) : (s.ownerEnd a how).FewChunks := by
  have begun : (s.modCtx a.owner fun x => { x with begun := true }).FewChunks := w.of_pool rfl
  unfold State.ownerEnd
  dsimp only
  split
  · cases how with
    | allDone => exact begun.ownerDone
    | retry => exact begun.ownerRetry
    | fault => exact begun.discardStaged.failOp
    | release => exact begun.ownerRelease
    | flowStop => exact begun.ownerFlow
    | holdTimeout => exact .failOp (.discardStaged (begun.of_pool (pool_countShort ..)))
  · exact begun

/-- An access ends (R54). -/
theorem accessEnds {a : Access} {how : AccessEnd} (w : s.FewChunks) : (s.accessEnds a how).FewChunks := by
  unfold State.accessEnds
  extract_lets _ quarantined released
  have quarantined_few : quarantined.FewChunks := .ite (w.of_pool (pool_quarantine ..)) w
  have ended : released.FewChunks := quarantined_few.of_pool rfl
  have evaluated : (released.ownerEnd a how).lockEvaluate.FewChunks := ended.ownerEnd.lockEvaluate
  exact .ite ended (.settle (.ite (evaluated.of_pool (pool_pulseBegin _)) evaluated))

theorem openPhaseDone {a : Access} {response : BitVec 2} (w : s.FewChunks) : (s.openPhaseDone a response).FewChunks := by
  unfold State.openPhaseDone
  split
  · exact w.of_pool rfl
  · exact w.accessEnds
  · exact w.accessEnds
  · exact w.accessEnds

theorem strobeDone {a : Access} {flow : Bool} {lines : BitVec 32} (w : s.FewChunks) :
    (s.strobeDone a flow lines).FewChunks := by
  have stored : (if a.direction = .read then s.storeBeat a lines else s).FewChunks :=
    .ite (w.of_chunks (chunks_storeBeat ..)) w
  unfold State.strobeDone
  exact .ite w.accessEnds (.ite (.accessEnds (stored.of_pool rfl)) (stored.of_pool rfl))

theorem grantAccess {a : Access} {l r n : Nat} (w : s.FewChunks) : (s.grantAccess a l r n).FewChunks := by
  unfold State.grantAccess
  extract_lets begun staged
  have kept : staged.FewChunks := .claimSecond (w.of_pool rfl)
  exact .ite kept (kept.of_pool (pool_startFirstPhase ..))

theorem timerDue {c : CtxId} {k : TimerKind} (w : s.FewChunks) : (s.timerDue c k).FewChunks := by
  unfold State.timerDue
  dsimp only
  split
  · exact .ite (.settle (w.of_pool rfl)) w
  · exact w

theorem pulseEnds {due : Nat} (w : s.FewChunks) : (s.pulseEnds due).FewChunks := by
  unfold State.pulseEnds
  extract_lets _ quiet invalidated
  have kept : invalidated.FewChunks := w.of_pool (pool_invalidateAll _)
  exact .settle (.of_pool kept.pendingDone (pool_nextPulse _))

theorem powerOnPulseOver {due : Nat} (w : s.FewChunks) :
    ((((s.untilUs due).invalidateAll).modBus BusCtl.pulseOver).nextPulse.settle).FewChunks :=
  .settle (w.of_pool (by simp))

/-! ### Completion entries -/

theorem handContext {c : CtxId} {q : QueueId} {e : Entry} (w : s.FewChunks) : (s.handContext c q e).FewChunks := by
  unfold State.handContext
  exact .settle (.freeChunksOf (w.of_pool rfl))

theorem contextIssued {q : QueueId} {c : CtxId} (w : s.FewChunks) : (s.contextIssued q c).FewChunks := by
  have released : ((s.freeChunksOf c).lockRelease c).FewChunks := w.freeChunksOf.lockRelease
  exact .settle (.fetchEvaluate (.queueTest (.fenceRelease released.freeContext)))

end State.FewChunks

/-! ### Every command -/

/-- An outcome that is a next state is one in which no context holds more than two chunks. -/
def NextFewChunks (o : Host.Outcome State Fault Refusal) : Prop := ∀ t, o = .next t → t.FewChunks

theorem NextFewChunks.next {s : State} (w : s.FewChunks) : NextFewChunks (.next s) := fun _ e => by cases e; exact w

/-- A reset leaves every chunk free (R129). -/
theorem fewChunks_of_free {s : State} (free : s.pool.chunks = Vector.replicate 24 none) : s.FewChunks := by
  refine ⟨fun c => ?_⟩
  have none_held : s.chunksOf c = [] := List.eq_nil_iff_forall_not_mem.mpr fun k member => by
    obtain ⟨h, held, _⟩ := (s.mem_chunksOf c k).mp member
    simp [free] at held
  rw [none_held]
  exact Nat.zero_le 2

section
variable {s : State} (w : s.FewChunks)
include w

theorem execFunctionResetComplete_fewChunks : NextFewChunks (execFunctionResetComplete s) := by
  unfold execFunctionResetComplete
  split
  · exact .next (fewChunks_of_free rfl)
  · exact .next w

theorem execEnable_fewChunks (value : BitVec 32) : NextFewChunks (execEnable value s) := by
  unfold execEnable
  dsimp only
  repeat' split
  all_goals exact .next (w.of_pool (by simp))

theorem execReset_fewChunks (value : BitVec 32) : NextFewChunks (execReset value s) := by
  unfold execReset
  split
  · exact .next w
  · exact .next (w.of_pool rfl)

theorem execIrqEnable_fewChunks (value : BitVec 32) : NextFewChunks (execIrqEnable value s) := by
  unfold execIrqEnable
  split
  · exact .next w
  · exact .next (w.of_pool (pool_writeIrqEnable ..))

theorem execIndexErrorClear_fewChunks (value : BitVec 32) : NextFewChunks (execIndexErrorClear value s) := by
  unfold execIndexErrorClear
  split
  · exact .next (w.of_pool rfl)
  · exact .next w

theorem execSubTail_fewChunks (queue : BitVec 4) (value : BitVec 16) : NextFewChunks (execSubTail queue value s) := by
  unfold execSubTail
  repeat' split
  all_goals exact .next (w.of_pool (by simp))

theorem execCplHead_fewChunks (queue : BitVec 4) (value : BitVec 16) : NextFewChunks (execCplHead queue value s) := by
  unfold execCplHead
  dsimp only
  repeat' split
  all_goals exact .next (w.of_pool (by simp))

theorem execTagGrant_fewChunks : NextFewChunks (execTagGrant s) := by
  unfold execTagGrant
  repeat' split
  all_goals exact .next (w.of_pool (by simp))

theorem execControlReadError_fewChunks : NextFewChunks (execControlReadError s) := by
  unfold execControlReadError
  split
  · exact .next w
  · exact .next w.readReturns

theorem execHostReadTimeout_fewChunks (i : TagId) : NextFewChunks (execHostReadTimeout i s) := by
  unfold execHostReadTimeout
  split
  · dsimp only
    split
    · exact .next (w.of_pool rfl)
    · exact .next (.handResponse (w.of_pool rfl))
  · exact .next w

theorem execStaleTagExpiry_fewChunks (i : TagId) : NextFewChunks (execStaleTagExpiry i s) := by
  unfold execStaleTagExpiry
  split
  · exact .next (w.of_pool rfl)
  · exact .next w

theorem execStaleResponse_fewChunks (i : TagId) : NextFewChunks (execStaleResponse i s) := by
  unfold execStaleResponse
  split
  · exact .next (w.of_pool rfl)
  · exact .next w

theorem execBusGrant_fewChunks : NextFewChunks (execBusGrant s) := by
  unfold execBusGrant
  split
  · exact .next w
  · split
    · exact .next w.grantAccess
    · exact .next w

theorem execTurnOffWaitEnd_fewChunks : NextFewChunks (execTurnOffWaitEnd s) := by
  unfold execTurnOffWaitEnd
  split
  · split
    · exact .next (w.of_pool (pool_startFirstPhase ..))
    · exact .next w
  · exact .next w

theorem execOpenPhaseEnd_fewChunks (hold : Bool) (response : BitVec 2) :
    NextFewChunks (execOpenPhaseEnd hold response s) := by
  unfold execOpenPhaseEnd
  split
  · exact .next w
  · next a _ =>
    have lasted : (s.elapse (max 1 a.snapshot.setup)).FewChunks := w.of_pool rfl
    dsimp only
    split
    · exact .next (lasted.of_pool rfl)
    · exact .next lasted.openPhaseDone

theorem execBeatEnd_fewChunks (hold flow : Bool) (lines : BitVec 32) : NextFewChunks (execBeatEnd hold flow lines s) := by
  unfold execBeatEnd
  split
  · exact .next w
  · next a _ =>
    have lasted : (s.elapse (max 1 a.snapshot.strobe)).FewChunks := w.of_pool rfl
    dsimp only
    split
    · exact .next (lasted.of_pool rfl)
    · exact .next lasted.strobeDone

theorem execHoldDrop_fewChunks (response : BitVec 2) (flow : Bool) (lines : BitVec 32) :
    NextFewChunks (execHoldDrop response flow lines s) := by
  unfold execHoldDrop
  split
  · exact .next w
  · dsimp only
    split
    · exact .next w.openPhaseDone
    · exact .next w.strobeDone
    · exact .next w

theorem execHoldTimeout_fewChunks : NextFewChunks (execHoldTimeout s) := by
  unfold execHoldTimeout
  split
  · exact .next w
  · exact .next (.accessEnds (w.of_pool rfl))

theorem execCompletionHandoff_fewChunks (c : CtxId) : NextFewChunks (execCompletionHandoff c s) := by
  unfold execCompletionHandoff
  split
  · split
    · exact .next w.handContext
    · exact .next w
  · exact .next w

theorem execEntryIssued_fewChunks : NextFewChunks (execEntryIssued s) := by
  unfold execEntryIssued
  split
  · next q _ irqNow _ _ _ _ =>
    have moderated : (s.popWrite.moderate q irqNow).FewChunks := w.of_pool (by simp)
    dsimp only
    split
    · exact .next moderated
    · exact .next moderated.contextIssued
  · exact .next w

theorem execDataWriteIssued_fewChunks : NextFewChunks (execDataWriteIssued s) := by
  unfold execDataWriteIssued
  split
  · exact .next (.settle (.freeIfDone (w.of_pool (pool_popWrite s))))
  · exact .next w

theorem execMessageIssued_fewChunks : NextFewChunks (execMessageIssued s) := by
  unfold execMessageIssued
  split
  · exact .next (w.of_pool (pool_popWrite s))
  · exact .next w

theorem execDelayTimerDue_fewChunks (q : QueueId) : NextFewChunks (execDelayTimerDue q s) := by
  unfold execDelayTimerDue
  dsimp only
  repeat' split
  all_goals exact .next (w.of_pool (by simp))

theorem execPulseEnd_fewChunks : NextFewChunks (execPulseEnd s) := by
  unfold execPulseEnd
  split
  · exact .next w.pulseEnds
  · exact .next w

theorem execPowerOnPulseEnd_fewChunks : NextFewChunks (execPowerOnPulseEnd s) := by
  unfold execPowerOnPulseEnd
  split
  · exact .next w.powerOnPulseOver
  · exact .next w

/-- No command gives a context a third chunk. -/
theorem exec_fewChunks (c : Instr) : NextFewChunks (exec c s) := by
  cases c with
  | powerOnReset | linkReset => exact .next (fewChunks_of_free rfl)
  | functionResetComplete => exact execFunctionResetComplete_fewChunks w
  | enable value => exact execEnable_fewChunks w value
  | reset value => exact execReset_fewChunks w value
  | irqEnable value => exact execIrqEnable_fewChunks w value
  | indexErrorClear value => exact execIndexErrorClear_fewChunks w value
  | registerWrite => exact .next (w.of_pool rfl)
  | subTail queue value => exact execSubTail_fewChunks w queue value
  | cplHead queue value => exact execCplHead_fewChunks w queue value
  | tagGrant => exact execTagGrant_fewChunks w
  | headerSlotReturn | extensionSlotReturn | profileLoadReturn | dataReadReturn => exact .next w.readReturns
  | hostReadTimeout tag => exact execHostReadTimeout_fewChunks w tag
  | staleTagExpiry tag => exact execStaleTagExpiry_fewChunks w tag
  | staleResponse tag => exact execStaleResponse_fewChunks w tag
  | busGrant => exact execBusGrant_fewChunks w
  | turnOffWaitEnd => exact execTurnOffWaitEnd_fewChunks w
  | openPhaseEnd hold response => exact execOpenPhaseEnd_fewChunks w hold response
  | beatEnd hold flow lines => exact execBeatEnd_fewChunks w hold flow lines
  | holdDrop response flow lines => exact execHoldDrop_fewChunks w response flow lines
  | holdTimeout => exact execHoldTimeout_fewChunks w
  | retryTimerDue | pollTimerDue | flowTimerDue => exact .next w.timerDue
  | completionHandoff c => exact execCompletionHandoff_fewChunks w c
  | entryIssued => exact execEntryIssued_fewChunks w
  | dataWriteIssued => exact execDataWriteIssued_fewChunks w
  | messageIssued => exact execMessageIssued_fewChunks w
  | delayTimerDue q => exact execDelayTimerDue_fewChunks w q
  | controlReadError => exact execControlReadError_fewChunks w
  | unknownCommand | mark => exact .next (w.takeSlot fun few => few.controlDone)
  | cfgq => exact .next (w.takeSlot fun few => few.of_pool (pool_runCfgq ..))
  | enq => exact .next (w.takeSlot fun few => few.of_pool (pool_runEnq ..))
  | disq => exact .next (w.takeSlot .runDisq)
  | abt => exact .next (w.takeSlot .runAbt)
  | invp => exact .next (w.takeSlot fun few => few.of_pool (pool_runInvp ..))
  | rlst => exact .next (w.takeSlot fun few => few.of_pool (pool_runRlst ..))
  | rstt => exact .next (w.takeSlot fun few => few.of_pool (pool_runRstt ..))
  | qryq => exact .next (w.takeSlot fun few => few.of_pool (pool_runQryq ..))
  | pulseEnd => exact execPulseEnd_fewChunks w
  | powerOnPulseEnd => exact execPowerOnPulseEnd_fewChunks w

end

/-- Settles O12: every operation that a command calls keeps each context at two chunks; that a chunk has one holder is how
the model holds it. -/
theorem stepKeepsChunksShared : Obligations.StepKeepsChunksShared := by
  intro s t ⟨bound, _⟩ answer
  suffices few : t.FewChunks from ⟨few.bound, t.chunk_free_or_held⟩
  have start : s.FewChunks := ⟨bound⟩
  unfold step at answer
  split at answer
  · have ticked : s.idle.FewChunks := start.of_pool rfl
    exact NextFewChunks.next ticked t answer
  · next c rest _ =>
    have queued : ({ s with pending := rest } : State).FewChunks := start.of_pool rfl
    exact exec_fewChunks queued c t answer

end Sys2Proof.Machine
end

section
/-! PROOFS. What the Staging Pool answers: first and second claims (R118, R121), the offer of a freed chunk (R119), the refused
members that claim again (R120), and the reads of a segment (R124). -/

namespace Sys2Proof.Machine

/-! ### The Lock Table's answer (R110) -/

theorem Context.opTargets_eq {x : Context} {o : Op} (op : x.op = some o) : x.opTargets = o.targets := by
  rw [Context.opTargets, op]
  rfl

theorem State.mayClaim_all_iff (s : State) (c : CtxId) (l : List TargetId) : l.all (s.mayClaim c) = true ↔
    ∀ t ∈ l, s.locks.rows[t] = some c
      ∨ (s.locks.rows[t] = none ∧ ∀ w ∈ s.locks.waiters, w.set.getLsbD t.val = false) := by
  simp only [List.all_eq_true, State.mayClaim_iff]

/-! ### A grant -/

section
variable {s : State} {c : CtxId} {k : ChunkId} {r : Role} {o : Op} {g : Segment}

theorem contexts_grantChunk : (s.grantChunk c k r o g).1.contexts = s.contexts := by
  unfold State.grantChunk
  dsimp only
  split <;> rfl

theorem ctx_grantChunk (d : CtxId) : (s.grantChunk c k r o g).1.ctx d = s.ctx d := by
  rw [State.ctx, contexts_grantChunk, State.ctx]

theorem cache_grantChunk : (s.grantChunk c k r o g).1.cache = s.cache := by
  unfold State.grantChunk
  dsimp only
  split <;> rfl

/-- A WRITE from host has its reads listed with the grant (R118, R124). -/
theorem port_grantChunk : (s.grantChunk c k r o g).1.port = { s.port with
    moverReads := s.port.moverReads ++ if o.readsHost = true then segmentReads c k o g else [] } := by
  unfold State.grantChunk
  dsimp only
  split
  · rfl
  · rw [List.append_nil]
    rfl

theorem segment_grantChunk : (s.grantChunk c k r o g).2 = if o.readsHost = true then g.reading else g := by
  unfold State.grantChunk
  dsimp only
  split <;> rfl

/-! ### First claims (R118) -/

theorem grantFirst_grants (op : (s.ctx c).op = some o) (segment : (s.ctx c).segment = some g)
    (fewer : (s.chunksOf c).length < 2) : s.grantFirst c k = (s.grantChunk c k .current o g).1.modCtx c fun x =>
      { x with segment := some (s.grantChunk c k .current o g).2, prep := .run .data } := by
  simp only [State.grantFirst, op, segment, if_neg (Nat.not_le.mpr fewer)]

/-- What a grant of a first chunk leaves: the chunk is held, the preparation goes on at step 7, and the reads of a WRITE from
host are listed. -/
theorem grantFirst_effect (op : (s.ctx c).op = some o) (segment : (s.ctx c).segment = some g)
    (fewer : (s.chunksOf c).length < 2) :
    let t := s.grantFirst c k
    t.pool = { s.pool with chunks := s.pool.chunks.set k (some
        { context := c, role := .current, targets := o.targets, length := g.len }) }
      ∧ (t.ctx c).prep = .run .data ∧ (∀ d, d ≠ c → t.ctx d = s.ctx d)
      ∧ (o.readsHost = true → t.port = { s.port with moverReads := s.port.moverReads ++ segmentReads c k o g }
          ∧ (t.ctx c).segment = some { g with hostRead := .pending, readError := false, reread := false })
      ∧ (o.readsHost = false → t.port = s.port ∧ (t.ctx c).segment = some g) := by
  dsimp only
  rw [grantFirst_grants op segment fewer, State.ctx_modCtx_self, State.modCtx_port, port_grantChunk, segment_grantChunk]
  refine ⟨pool_grantChunk .., rfl, fun d other => ?_, fun reads => ?_, fun no => ?_⟩
  · rw [State.ctx_modCtx_ne _ _ other, ctx_grantChunk]
  · rw [if_pos reads, if_pos reads]
    exact ⟨rfl, rfl⟩
  · rw [if_neg (ne_true_of_eq_false no), if_neg (ne_true_of_eq_false no), List.append_nil]
    exact ⟨rfl, rfl⟩

theorem claimFirst_waits (two : 2 ≤ (s.chunksOf c).length) : s.claimFirst c = s.setPrep c .waitTwo := if_pos two

theorem claimFirst_refused (op : (s.ctx c).op = some o) (fewer : (s.chunksOf c).length < 2)
    (no : ¬ o.targets.all (s.mayClaim c) = true) : s.claimFirst c = (s.modPool fun p =>
      { p with refused := p.refused ++ [{ context := c, targets := o.targets }] }).setPrep c .waitChunk := by
  simp only [State.claimFirst, Context.opTargets_eq op, if_neg (Nat.not_le.mpr fewer), Bool.not_eq_true', if_pos
    (Bool.eq_false_iff.mpr no)]

theorem claimFirst_joins (op : (s.ctx c).op = some o) (fewer : (s.chunksOf c).length < 2)
    (yes : o.targets.all (s.mayClaim c) = true) (busy : s.pool.waiters ≠ [] ∨ s.freeChunk? = none) :
    s.claimFirst c = (s.modPool fun p =>
      { p with waiters := p.waiters ++ [{ context := c, targets := o.targets }] }).setPrep c .waitChunk := by
  simp only [State.claimFirst, Context.opTargets_eq op, if_neg (Nat.not_le.mpr fewer), yes, Bool.not_true, Bool.false_eq_true,
    if_false]
  split
  · next k nobody free => simp [nobody, free] at busy
  · rfl

theorem claimFirst_granted (op : (s.ctx c).op = some o) (fewer : (s.chunksOf c).length < 2)
    (yes : o.targets.all (s.mayClaim c) = true) (nobody : s.pool.waiters = []) (free : s.freeChunk? = some k) :
    s.claimFirst c = s.grantFirst c k := by
  simp only [State.claimFirst, Context.opTargets_eq op, if_neg (Nat.not_le.mpr fewer), yes, Bool.not_true, Bool.false_eq_true,
    if_false, nobody, free]

/-! ### Second claims (R121) -/

/-- A second chunk is asked for, and nothing but the want of a free chunk stands in the way (R14, R121). -/
def State.AsksSecond (s : State) (c : CtxId) (o : Op) (g : Segment) : Prop :=
  o.usesChunk = true ∧ (o.isCopy = true → g.half = .destination) ∧ g.base + g.place + g.len < o.length
    ∧ (s.chunksOf c).length = 1 ∧ s.pool.waiters = [] ∧ ∀ t ∈ o.targets, s.mayClaim c t = true

theorem asksSecond_iff : (o.usesChunk && (!o.isCopy || g.half == .destination) && decide (g.base + g.place + g.len < o.length)
    && (s.chunksOf c).length == 1 && s.pool.waiters.isEmpty && o.targets.all (s.mayClaim c)) = true
      ↔ s.AsksSecond c o g := by
  simp only [State.AsksSecond, Bool.and_eq_true, Bool.or_eq_true, Bool.not_eq_true', decide_eq_true_eq, beq_iff_eq,
    List.isEmpty_iff, List.all_eq_true, and_assoc, ← Bool.not_eq_true, Decidable.imp_iff_not_or]

theorem claimSecond_unasked (op : (s.ctx c).op = some o) (segment : (s.ctx c).segment = some g)
    (no : ¬ s.AsksSecond c o g) : s.claimSecond c = s := by
  simp only [State.claimSecond, op, segment, if_neg (mt asksSecond_iff.mp no)]

theorem claimSecond_full (full : s.freeChunk? = none) : s.claimSecond c = s := by
  unfold State.claimSecond
  dsimp only
  split
  · rw [full]
    exact ite_self s
  · rfl

theorem claimSecond_grants (op : (s.ctx c).op = some o) (segment : (s.ctx c).segment = some g)
    (asks : s.AsksSecond c o g) (free : s.freeChunk? = some k) :
    s.claimSecond c = (s.grantChunk c k .staged o (nextSegment (s.ctx c) o g)).1.modCtx c fun x =>
      { x with staged := some (s.grantChunk c k .staged o (nextSegment (s.ctx c) o g)).2 } := by
  simp only [State.claimSecond, op, segment, if_pos (asksSecond_iff.mpr asks), free]

/-- The staged segment begins where the current one ends and is cut with the same profiles (R14, R121). -/
theorem nextSegment_eq (x : Context) (o : Op) (g : Segment) :
    let p := (x.profileOf .source).bus
    let start := g.base + g.place + g.len
    nextSegment x o g = {
      half := .source, target := o.target, addr := if p.cls = 0 then o.addr + BitVec.ofNat 24 start else o.addr
      base := start, len := segmentLength o .source p (x.profileOf .destination).bus start o.length } := by
  simp only [nextSegment, Op.addrAt_eq, if_true]

/-- A segment cut for staging has made no read. -/
theorem nextSegment_reading (x : Context) (o : Op) (g : Segment) :
    (if o.readsHost = true then (nextSegment x o g).reading else nextSegment x o g)
      = { nextSegment x o g with hostRead := if o.readsHost = true then .pending else .notNeeded } := by
  split <;> rfl

end

/-! ### The offer of a freed chunk (R119) -/

/-- The members the Lock Table refuses at the head of the waiter list go to the lock-refused set, in order. -/
theorem offer_refuses {s : State} {no : List Claim} (refused : ∀ m ∈ no, ∃ t ∈ m.targets, s.mayClaim m.context t = false)
    (k : ChunkId) (rest : List Claim) :
    s.offer k (no ++ rest) = (s.modPool fun p => { p with refused := p.refused ++ no }).offer k rest := by
  induction no generalizing s with
  | nil => simp [State.modPool]
  | cons m more ih =>
    obtain ⟨⟨t, named, answer⟩, later⟩ := List.forall_mem_cons.mp refused
    have no_ : ¬ m.targets.all (s.mayClaim m.context) = true := fun all => by
      simp [List.all_eq_true.mp all t named] at answer
    have joined := ih (s := s.modPool fun p => { p with refused := p.refused ++ [m] }) later
    simp only [State.modPool, List.append_assoc, List.singleton_append] at joined
    rw [List.cons_append, State.offer, if_neg no_]
    exact joined

theorem offer_grants {s : State} {m : Claim} (allowed : ∀ t ∈ m.targets, s.mayClaim m.context t = true) (k : ChunkId)
    (rest : List Claim) : s.offer k (m :: rest) = (s.modPool fun p => { p with waiters := rest }).grantFirst m.context k :=
  if_pos (List.all_eq_true.mpr allowed)

/-! ### Refused members claim again (R120) -/

/-- No member of a list in order of age is older than one before it. -/
def State.InOrderOfAge (s : State) (l : List CtxId) : Prop :=
  l.Pairwise fun c d => older (s.ctx d).seq (s.ctx c).seq = false

section
variable {s : State} {b : BitVec 32}

theorem insertByAge_inOrderOfAge {c : CtxId} {l : List CtxId} (window : ∀ d ∈ c :: l, ((s.ctx d).seq - b).toNat < 2 ^ 31)
    (ordered : s.InOrderOfAge l) : s.InOrderOfAge (s.insertByAge c l) := by
  have nearer {d e : CtxId} (hd : d ∈ c :: l) (he : e ∈ c :: l) :=
    older_iff_of_window (window d hd) (window e he)
  have here : c ∈ c :: l := List.mem_cons_self
  induction l with
  | nil => exact List.pairwise_singleton _ c
  | cons d rest ih =>
    obtain ⟨first, tail⟩ := List.pairwise_cons.mp ordered
    have hd : d ∈ c :: d :: rest := by simp
    unfold State.insertByAge
    split
    · next younger =>
      refine List.pairwise_cons.mpr ⟨List.forall_mem_cons.mpr ⟨?_, fun e member => ?_⟩, ordered⟩
      · rw [← Bool.not_eq_true, nearer hd here]
        exact Nat.not_lt_of_lt ((nearer here hd).mp younger)
      · have he : e ∈ c :: d :: rest := by simp [member]
        have after := first e member
        rw [← Bool.not_eq_true, nearer he hd, Nat.not_lt] at after
        rw [← Bool.not_eq_true, nearer he here]
        exact Nat.not_lt_of_lt (Nat.lt_of_lt_of_le ((nearer here hd).mp younger) after)
    · next not_younger =>
      have sub : ∀ e ∈ c :: rest, e ∈ c :: d :: rest := by simp +contextual
      refine List.pairwise_cons.mpr ⟨fun e member => ?_, ih (fun e m => window e (sub e m)) tail
        (fun m n => nearer (sub _ m) (sub _ n)) List.mem_cons_self⟩
      rcases s.mem_insertByAge member with rfl | later
      · exact Bool.eq_false_iff.mpr not_younger
      · exact first e later

theorem byAge_inOrderOfAge {l : List CtxId} (window : ∀ d ∈ l, ((s.ctx d).seq - b).toNat < 2 ^ 31) :
    s.InOrderOfAge (s.byAge l) := by
  induction l with
  | nil => exact .nil
  | cons c rest ih =>
    obtain ⟨hc, hrest⟩ := List.forall_mem_cons.mp window
    exact insertByAge_inOrderOfAge
      (List.forall_mem_cons.mpr ⟨hc, fun d member => hrest d (s.mem_of_mem_byAge member)⟩) (ih hrest)

end

/-! ### The reads of a segment (R124) -/

theorem segmentReads_eq (c : CtxId) (k : ChunkId) (o : Op) (g : Segment) :
    let first := o.data + BitVec.ofNat 64 (g.base + g.place)
    let room := 4096 - first.toNat % 4096
    let read (i n : Nat) : ReadReq := { ref := .data c k (g.place + i), addr := first + BitVec.ofNat 64 i, len := n }
    segmentReads c k o g = if g.len ≤ room then [read 0 g.len] else [read 0 room, read room (g.len - room)] := by
  intro first room read
  have begins : read 0 = fun n => { ref := .data c k (g.place + (first - first).toNat), addr := first, len := n } := by
    simp [read]
  have crosses : (first + BitVec.ofNat 64 room - first).toNat = room := by
    rw [BitVec.add_comm, BitVec.add_sub_cancel, BitVec.toNat_ofNat, Nat.mod_eq_of_lt (by omega)]
  have after : read room = fun n => { ref := .data c k (g.place + (first + BitVec.ofNat 64 room - first).toNat)
                                      addr := first + BitVec.ofNat 64 room, len := n } := by
    rw [crosses]
  rw [begins, after, segmentReads, pageSplit]
  split <;> rfl

theorem Op.readsHost_iff (o : Op) : o.readsHost = true ↔ o.kind = .write ∧ o.inline = false := by
  simp [Op.readsHost]

/-! ### The answers together -/

/-- Settles O16: one equation for each answer of the pool. -/
theorem chunkClaimsAnswered : Obligations.ChunkClaimsAnswered := by
  refine ⟨?first, ?offer, ?second, ?again, fun c k o g => ⟨segmentReads_eq c k o g, o.readsHost_iff⟩⟩
  case first =>
    intro s c o g op segment allowed lowest waits
    have answer : o.targets.all (s.mayClaim c) = true ↔ allowed := s.mayClaim_all_iff c o.targets
    refine ⟨claimFirst_waits, fun fewer no => ?refused, fun fewer yes busy => ?joins, fun fewer yes nobody k free => ?granted⟩
    case refused => exact claimFirst_refused op fewer (mt answer.mp no)
    case joins => exact claimFirst_joins op fewer (answer.mpr yes) (busy.imp_right s.freeChunk?_eq_none)
    case granted =>
      dsimp only
      rw [claimFirst_granted op fewer (answer.mpr yes) nobody (s.freeChunk?_eq_some k free.1 free.2)]
      exact grantFirst_effect op segment fewer
  case offer =>
    intro s k no refused
    refine ⟨?nobody, fun m rest o g allowed op segment fewer => ?granted⟩
    case nobody =>
      rw [← List.append_nil no, offer_refuses refused, List.append_nil]
      rfl
    case granted =>
      have offered : s.offer k (no ++ m :: rest) = State.grantFirst { s with
          pool := { s.pool with waiters := rest, refused := s.pool.refused ++ no } } m.context k := by
        rw [offer_refuses refused, offer_grants (s := s.modPool _) allowed]
        rfl
      rw [offered]
      refine (grantFirst_effect ?op ?segment ?fewer).1
      case op => exact op
      case segment => exact segment
      case fewer => exact fewer
  case second =>
    intro s c o g op segment asks
    refine ⟨fun no => ?unchanged, ?granted⟩
    case unchanged =>
      exact no.elim (claimSecond_unasked op segment) fun full => claimSecond_full (s.freeChunk?_eq_none full)
    case granted =>
      intro k asked free lowest t p start next
      have cut : nextSegment (s.ctx c) o g = next := nextSegment_eq (s.ctx c) o g
      have granted : t = _ := claimSecond_grants op segment asked (s.freeChunk?_eq_some k free lowest)
      rw [segment_grantChunk, nextSegment_reading, cut] at granted
      rw [granted, State.ctx_modCtx_self, ctx_grantChunk]
      exact ⟨cut, rfl, fun d other => (State.ctx_modCtx_ne _ _ other).trans (ctx_grantChunk d), pool_grantChunk ..,
        port_grantChunk, locks_grantChunk .., cache_grantChunk, outside_grantChunk ..⟩
  case again =>
    intro s yes
    exact ⟨s.byAge ((s.pool.refused.filter yes).map (·.context)), rfl, s.byAge_perm _, fun b window =>
      byAge_inOrderOfAge fun d member => window d ((s.byAge_perm _).mem_iff.mpr member)⟩

end Sys2Proof.Machine
end

section
/-! PROOFS. A data read that returns (R125): where its bytes go, what its segment becomes, and how its context goes on. -/

namespace Sys2Proof.Machine

section
variable {s : State} {c : CtxId} {k : ChunkId} {p : Nat} {r : Response} {h : ChunkHold} {g : Segment}

/-! ### What a return leaves alone -/

@[simp] theorem outside_putSegment (s : State) (c : CtxId) (role : Role) (g : Segment) :
    (s.putSegment c role g).outside = s.outside := rfl

@[simp] theorem outside_overtakenRead (s : State) (c : CtxId) (k : ChunkId) (role : Role) (g : Segment) (failed : Bool) :
    (s.overtakenRead c k role g failed).outside = s.outside := by
  unfold State.overtakenRead
  dsimp only
  repeat' split
  all_goals rfl

@[simp] theorem outside_afterDataRead (s : State) (c : CtxId) : (s.afterDataRead c).outside = s.outside := by
  unfold State.afterDataRead
  dsimp only
  repeat' split
  all_goals simp

theorem State.modCtx_of_fixed {f : Context → Context} (fixed : f (s.ctx c) = s.ctx c) : s.modCtx c f = s := by
  have same : s.contexts.set c (f s.contexts[c]) = s.contexts := by
    rw [show f s.contexts[c] = s.contexts[c] from fixed]
    exact Vector.set_getElem_self _
  rw [State.modCtx, same]

/-! ### The chunk's side (R122, R125) -/

/-- Segment `g` of context `c` is the one that hold `h` is for: its current one or its staged one. -/
def State.HoldsFor (s : State) (c : CtxId) (h : ChunkHold) (g : Segment) : Prop :=
  (h.role = .current ∧ (s.ctx c).segment = some g) ∨ (h.role = .staged ∧ (s.ctx c).staged = some g)

theorem chunkRead_ended (held : s.pool.chunks[k] = some h) (ended : h.role = .ended) :
    s.chunkRead c k p r = s.freeIfDone k := by
  simp only [State.chunkRead, held, ended]

theorem chunkRead_ignored (held : s.pool.chunks[k] = some h) (role : h.role ≠ .ended)
    (ignores : (s.ctx c).ignoresReads = true) : s.chunkRead c k p r = s := by
  cases is : h.role with
  | ended => exact absurd is role
  | current | staged => simp only [State.chunkRead, held, is, ignores, if_true]

theorem chunkRead_segment (held : s.pool.chunks[k] = some h) (uses : (s.ctx c).ignoresReads = false)
    (holds : s.HoldsFor c h g) : s.chunkRead c k p r = s.segmentRead c k h.role g p r := by
  rcases holds with ⟨role, segment⟩ | ⟨role, staged⟩
  · simp [State.chunkRead, held, role, uses, segment]
  · simp [State.chunkRead, held, role, uses, staged]

theorem segmentRead_overtaken (reread : g.reread = true) (role : Role) :
    s.segmentRead c k role g p r = s.overtakenRead c k role g (r == .hostError) := if_pos reread

theorem segmentRead_data (own : g.reread = false) (role : Role) (bytes : List Byte) :
    s.segmentRead c k role g p (.data bytes) =
      (s.modPool fun q => { q with memory := q.memory.writeBytes (chunkAddr k p) bytes }).putSegment c role
        (g.afterRead false (s.readInFlight (·.isChunk k) || s.readListed k)) :=
  if_neg (ne_true_of_eq_false own)

theorem segmentRead_hostError (own : g.reread = false) (role : Role) : s.segmentRead c k role g p .hostError =
    (s.dropReads (·.isChunk k)).putSegment c role (g.afterRead true (s.readInFlight (·.isChunk k))) :=
  if_neg (ne_true_of_eq_false own)

theorem outside_segmentRead_hostError (role : Role) : (s.segmentRead c k role g p .hostError).outside = s.outside := by
  cases own : g.reread with
  | true => rw [segmentRead_overtaken own, outside_overtakenRead]
  | false => rw [segmentRead_hostError own, outside_putSegment, outside_dropReads]

/-- A host error leaves the staging memory as it is, whatever its chunk is held for (R125). -/
theorem outside_chunkRead_hostError : (s.chunkRead c k p .hostError).outside = s.outside := by
  unfold State.chunkRead
  repeat' split
  · rfl
  · exact outside_freeIfDone ..
  · rfl
  · rfl
  · exact outside_segmentRead_hostError _

/-- So do data that a longer cut overtook (R124). -/
theorem outside_chunkRead_overtaken (held : s.pool.chunks[k] = some h) (holds : s.HoldsFor c h g)
    (reread : g.reread = true) : (s.chunkRead c k p r).outside = s.outside := by
  cases uses : (s.ctx c).ignoresReads with
  | true => rw [chunkRead_ignored held (by rcases holds with ⟨role, _⟩ | ⟨role, _⟩ <;> simp [role]) uses]
  | false => rw [chunkRead_segment held uses holds, segmentRead_overtaken reread, outside_overtakenRead]

/-! ### The segment after a return (R33, R125) -/

theorem Segment.afterRead_eq (g : Segment) (failed awaited : Bool) :
    g.afterRead failed awaited = { g with
      readError := g.readError || failed
      hostRead := if awaited then g.hostRead else if g.readError || failed then .failed else .arrived } := by
  cases awaited <;> rfl

/-- The context with its segment of a role replaced. -/
def Context.withSegment (x : Context) (role : Role) (g : Segment) : Context :=
  if role = .current then { x with segment := some g } else { x with staged := some g }

/-- Between `s` and `t` context `c` has become `x`, and no other context has changed. -/
structure State.Takes (s t : State) (c : CtxId) (x : Context) : Prop where
  self : t.ctx c = x
  others : ∀ d, d ≠ c → t.ctx d = s.ctx d

theorem takes_putSegment {u : State} (same : u.contexts = s.contexts) {role : Role} (live : role ≠ .ended) (now : Segment) :
    s.Takes (u.putSegment c role now) c ((s.ctx c).withSegment role now) := by
  have ctx (d : CtxId) : u.ctx d = s.ctx d := by rw [State.ctx, same, State.ctx]
  refine ⟨?_, fun d other => (State.ctx_modCtx_ne _ _ other).trans (ctx d)⟩
  rw [State.putSegment, State.ctx_modCtx_self, ctx]
  cases role with
  | ended => exact absurd rfl live
  | current | staged => rfl

theorem State.HoldsFor.live (holds : s.HoldsFor c h g) : h.role ≠ .ended := by
  rcases holds with ⟨role, _⟩ | ⟨role, _⟩ <;> simp [role]

theorem State.HoldsFor.withSegment (holds : s.HoldsFor c h g) : (s.ctx c).withSegment h.role g = s.ctx c := by
  unfold Context.withSegment
  rcases holds with ⟨role, segment⟩ | ⟨role, staged⟩
  · rw [if_pos role, ← segment]
  · rw [if_neg (by simp [role]), ← staged]

/-- What a segment whose data no cut has overtaken takes from a return: a host error drops its listed reads, and more of its
reads are awaited while one is in flight or, with no error, listed (R125). -/
theorem segmentRead_own (own : g.reread = false) (role : Role) : ∃ (v : State) (awaited : Bool),
    s.segmentRead c k role g p r = v.putSegment c role (g.afterRead (r == .hostError) awaited)
      ∧ v.contexts = s.contexts
      ∧ v.port.moverReads = (if r = .hostError then s.port.moverReads.filter (fun q => !q.ref.isChunk k)
          else s.port.moverReads)
      ∧ (awaited = true ↔ s.ReadsInFlight (·.isChunk k)
          ∨ (r ≠ .hostError ∧ ∃ q ∈ s.port.moverReads, q.ref.isChunk k = true)) := by
  cases r with
  | data bytes =>
    refine ⟨_, _, segmentRead_data own role bytes, rfl, rfl, ?_⟩
    rw [Bool.or_eq_true, s.readInFlight_iff, State.readListed, List.any_eq_true]
    simp
  | hostError =>
    refine ⟨_, _, segmentRead_hostError own role, rfl, rfl, ?_⟩
    rw [s.readInFlight_iff]
    simp

theorem overtakenRead_waits {role : Role} {failed : Bool} (waits : s.ReadsInFlight (·.isChunk k)) :
    s.overtakenRead c k role g failed = s.putSegment c role { g with readError := g.readError || failed } :=
  if_pos ((s.readInFlight_iff _).mpr waits)

theorem overtakenRead_fails {role : Role} {failed : Bool} (last : ¬ s.ReadsInFlight (·.isChunk k))
    (lost : (g.readError || failed) = true) : s.overtakenRead c k role g failed =
      s.putSegment c role { g with readError := true, hostRead := .failed, reread := false } := by
  rw [← lost]
  exact (if_neg (mt (s.readInFlight_iff _).mp last)).trans (if_pos lost)

theorem overtakenRead_rereads {role : Role} {failed : Bool} {o : Op} (last : ¬ s.ReadsInFlight (·.isChunk k))
    (whole : (g.readError || failed) = false) (op : (s.ctx c).op = some o) :
    s.overtakenRead c k role g failed = (s.listReads c k o g).putSegment c role g.reading := by
  refine (if_neg (mt (s.readInFlight_iff _).mp last)).trans ((if_neg (ne_true_of_eq_false whole)).trans ?_)
  rw [op]
  rfl

theorem overtakenRead_opless {role : Role} {failed : Bool} (last : ¬ s.ReadsInFlight (·.isChunk k))
    (whole : (g.readError || failed) = false) (op : (s.ctx c).op = none) : s.overtakenRead c k role g failed = s := by
  refine (if_neg (mt (s.readInFlight_iff _).mp last)).trans ((if_neg (ne_true_of_eq_false whole)).trans ?_)
  rw [op]

/-- What becomes of a segment whose data a longer cut overtook: an error marks it while another read of it is in flight; with
none in flight its host read has failed, or it is read anew (R33, R124, R125). -/
theorem overtakenRead_takes (holds : s.HoldsFor c h g) (failed : Bool) :
    let t := s.overtakenRead c k h.role g failed
    let lost := g.readError || failed
    let others := s.ReadsInFlight (·.isChunk k)
    ∃ now : Segment, (others → now = { g with readError := lost } ∧ t.port = s.port)
      ∧ (¬ others → lost = true →
          now = { g with readError := true, hostRead := .failed, reread := false } ∧ t.port = s.port)
      ∧ (¬ others → lost = false → ∀ o, (s.ctx c).op = some o →
          now = g.reading ∧ t.port = { s.port with moverReads := s.port.moverReads ++ segmentReads c k o g })
      ∧ s.Takes t c ((s.ctx c).withSegment h.role now) := by
  intro t lost others
  have takes {u : State} (same : u.contexts = s.contexts) (now : Segment) :
      s.Takes (u.putSegment c h.role now) c ((s.ctx c).withSegment h.role now) := takes_putSegment same holds.live now
  by_cases waits : others
  · have is : t = _ := overtakenRead_waits waits
    rw [is]
    exact ⟨_, fun _ => ⟨rfl, rfl⟩, absurd waits, absurd waits, takes rfl _⟩
  · cases error : lost with
    | true =>
      have is : t = _ := overtakenRead_fails waits error
      rw [is]
      exact ⟨_, (absurd · waits), fun _ _ => ⟨rfl, rfl⟩, nofun, takes rfl _⟩
    | false =>
      cases op : (s.ctx c).op with
      | none =>
        have is : t = s := overtakenRead_opless waits error op
        rw [is]
        exact ⟨g, (absurd · waits), nofun, nofun, holds.withSegment.symm, fun _ _ => rfl⟩
      | some o =>
        have is : t = _ := overtakenRead_rereads waits error op
        rw [is]
        refine ⟨_, (absurd · waits), nofun, fun _ _ o' same => ⟨rfl, ?_⟩, takes (u := s.listReads c k o g) rfl _⟩
        obtain rfl := Option.some.inj same
        rfl

/-! ### The context's side (R10, R23, R24) -/

/-- Step 7 goes on: the context waits there, and its current segment's host read is no longer pending (R10). -/
def Context.GoesOn (x : Context) : Prop :=
  x.state = .preparing ∧ x.prep = .waitData ∧ ∀ z, x.segment = some z → z.hostRead ≠ .pending

theorem afterDataRead_goesOn (goes : (s.ctx c).GoesOn) : s.afterDataRead c = s.setPrep c (.run .data) := by
  obtain ⟨state, prep, arrived⟩ := goes
  have none_pending : ¬ ((s.ctx c).segment.any fun g => g.hostRead == .pending) = true := by
    rw [Option.any_eq_true]
    rintro ⟨z, is, pending⟩
    exact arrived z is (beq_iff_eq.mp pending)
  simp [State.afterDataRead, state, prep, if_neg none_pending]

theorem afterDataRead_stays (uses : (s.ctx c).prep ≠ .waitReads) (stays : ¬ (s.ctx c).GoesOn) : s.afterDataRead c = s := by
  unfold State.afterDataRead
  dsimp only
  split
  · rfl
  · next preparing =>
    split
    · next prep =>
      split
      · rfl
      · next none_pending =>
        refine absurd ⟨by simpa using preparing, prep, fun z is pending => none_pending ?_⟩ stays
        rw [is, Option.any_some, pending]
        rfl
    · next prep => exact absurd prep uses
    · rfl

theorem port_afterDataRead (uses : (s.ctx c).prep ≠ .waitReads) : (s.afterDataRead c).port = s.port := by
  by_cases goes : (s.ctx c).GoesOn
  · rw [afterDataRead_goesOn goes, State.setPrep_port]
  · rw [afterDataRead_stays uses goes]

/-- A context that waits for its reads, once its reads have been counted (R23, R24). -/
theorem afterDataRead_waitReads (state : (s.ctx c).state = .preparing) (prep : (s.ctx c).prep = .waitReads) :
    s.afterDataRead c = if (s.ctx c).abortPending = true then s.finishAbort c
      else if s.readInFlight (·.isDataOf c) = true then s else s.setPrep c (.run .start) := by
  simp [State.afterDataRead, state, prep]

theorem Context.prep_of_uses {x : Context} (uses : x.ignoresReads = false) : x.prep ≠ .waitReads := fun prep => by
  simp [Context.ignoresReads, prep] at uses

theorem Context.withSegment_state (x : Context) (role : Role) (g : Segment) : (x.withSegment role g).state = x.state := by
  unfold Context.withSegment
  split <;> rfl

theorem Context.withSegment_prep (x : Context) (role : Role) (g : Segment) : (x.withSegment role g).prep = x.prep := by
  unfold Context.withSegment
  split <;> rfl

theorem Context.withSegment_goesOn_iff (x : Context) (role : Role) (g : Segment) : (x.withSegment role g).GoesOn ↔
    x.state = .preparing ∧ x.prep = .waitData
      ∧ ∀ z, (x.withSegment role g).segment = some z → z.hostRead ≠ .pending := by
  rw [Context.GoesOn, Context.withSegment_state, Context.withSegment_prep]

/-- A context that has become `x` with its read's return goes on with step 7, or stays as it is (R10). -/
theorem State.Takes.afterDataRead {t : State} {x : Context} (takes : s.Takes t c x) (uses : x.prep ≠ .waitReads) :
    let w := t.afterDataRead c
    (x.GoesOn → w.ctx c = { x with prep := .run .data }) ∧ (¬ x.GoesOn → w.ctx c = x)
      ∧ (∀ d, d ≠ c → w.ctx d = s.ctx d) ∧ w.port = t.port := by
  obtain ⟨self, others⟩ := takes
  subst self
  refine ⟨fun goes => ?_, fun stays => ?_, fun d other => ?_, port_afterDataRead uses⟩
  · rw [afterDataRead_goesOn goes, State.setPrep, State.ctx_modCtx_self]
  · rw [afterDataRead_stays uses stays]
  · by_cases goes : (t.ctx c).GoesOn
    · rw [afterDataRead_goesOn goes, State.setPrep, State.ctx_modCtx_ne _ _ other, others d other]
    · rw [afterDataRead_stays uses goes, others d other]

/-! ### DATA_READ_RETURN -/

theorem exec_dataReadReturn {i : TagId} {n : Nat} {a : HostAddr} (awaits : s.Awaits i { ref := .data c k p, addr := a, len := n })
    (complete : responseComplete r n = true) : exec (.dataReadReturn i r) s =
      .next (((s.setTag i .free).chunkRead c k p r).afterDataRead c).settle := by
  obtain ⟨inFlight, running⟩ := awaits
  simp [exec, execDataReadReturn, State.readReturns, inFlight, ReadRef.isData, complete, running, State.handResponse,
    State.dataReturned]

end

/-- Settles O36: the bytes by the chunk's side of the return, the segment and its context by the two sides in turn. -/
theorem dataReadPlacesBytes : Obligations.DataReadPlacesBytes := by
  refine ⟨?bytes, ?others, ?requester, ?waiting⟩
  case bytes =>
    intro s i c k p n a bytes h g canonical awaits size held own uses holds
    let u := s.setTag i .free
    have complete : responseComplete (.data bytes) n = true := beq_iff_eq.mpr size
    have outside : (((u.chunkRead c k p (.data bytes)).afterDataRead c).settle).outside =
        { u.outside with memory := s.pool.memory.writeBytes (256 * k.val + p) bytes } := by
      rw [outside_settle, outside_afterDataRead, chunkRead_segment (s := u) held uses holds,
        segmentRead_data own, outside_putSegment]
      rfl
    have memory := congrArg Outside.memory outside
    refine ⟨_, exec_dataReadReturn awaits complete, fun j hj => ?_, fun x away => ?_, ?_⟩
    · exact (congrArg (Memory.read · _) memory).trans (Memory.read_writeBytes _ bytes canonical j hj)
    · exact (congrArg (Memory.read · _) memory).trans (Memory.read_writeBytes_outside _ _ bytes (by omega))
    · rw [outside]
      exact congrArg (fun m => { u.outside with memory := m }) memory.symm
  case others =>
    intro s i c k p n a awaits
    refine ⟨⟨_, exec_dataReadReturn awaits rfl, ?_⟩, fun bytes h g size held holds reread =>
      ⟨_, exec_dataReadReturn awaits (beq_iff_eq.mpr size), ?_⟩⟩
    · rw [outside_settle, outside_afterDataRead, outside_chunkRead_hostError]
    · rw [outside_settle, outside_afterDataRead,
        outside_chunkRead_overtaken (s := s.setTag i .free) held holds reread]
  case requester =>
    intro s i c k p n a r h awaits complete held x u w
    refine ⟨exec_dataReadReturn awaits complete, chunkRead_ended held, chunkRead_ignored (s := u) held, ?_⟩
    intro g uses holds lost others listed
    have read : u.chunkRead c k p r = u.segmentRead c k h.role g p r := chunkRead_segment (s := u) held uses holds
    have goes {now : Segment} (takes : u.Takes (u.chunkRead c k p r) c (x.withSegment h.role now)) :=
      takes.afterDataRead (by rw [Context.withSegment_prep]; exact Context.prep_of_uses uses)
    simp only [Context.withSegment_goesOn_iff] at goes
    rcases Bool.eq_false_or_eq_true g.reread with overtaken | overtaken
    · obtain ⟨now, more, failed, anew, takes⟩ := overtakenRead_takes (s := u) holds (r == .hostError)
      rw [← segmentRead_overtaken overtaken, ← read] at takes more failed anew
      obtain ⟨on, stays, rest, port⟩ := goes takes
      rw [← port] at more failed anew
      exact ⟨now, (absurd · (by simp [overtaken])), fun _ => ⟨more, failed, anew⟩, on, stays, rest⟩
    · obtain ⟨v, awaited, is, contexts, mover, awaited_iff⟩ := segmentRead_own (s := u) (c := c) (p := p) (r := r) (k := k)
        overtaken h.role
      rw [← read] at is
      have takes : u.Takes (u.chunkRead c k p r) c (x.withSegment h.role (g.afterRead (r == .hostError) awaited)) :=
        is ▸ takes_putSegment contexts (State.HoldsFor.live holds) _
      obtain ⟨on, stays, rest, port⟩ := goes takes
      refine ⟨_, fun _ => ⟨?_, fun more => ?_, fun last none_ => ?_, ?_⟩, (absurd · (by simp [overtaken])), on, stays,
        rest⟩
      · rw [Segment.afterRead_eq]
      · rw [Segment.afterRead_eq, if_pos (awaited_iff.mpr more)]
      · rw [Segment.afterRead_eq, if_neg (mt awaited_iff.mp _)]
        exact not_or.mpr ⟨last, fun more => none_.elim more.1 (· more.2)⟩
      · rw [port, is]
        exact mover
  case waiting =>
    intro s c state prep waits
    have inFlight : s.readInFlight (·.isDataOf c) = true ↔ waits := s.readInFlight_iff _
    rw [afterDataRead_waitReads state prep]
    refine ⟨fun waiting => ?_, fun last noAbort => ?_, fun last abort => ?_⟩
    · have stays : s.setPrep c .waitReads = s := State.modCtx_of_fixed (by rw [← prep])
      rw [State.finishAbort, if_pos (inFlight.mpr waiting), if_pos (inFlight.mpr waiting), stays]
      exact ite_self s
    · rw [if_neg (ne_true_of_eq_false noAbort), if_neg (mt inFlight.mp last)]
    · rw [if_pos abort, State.finishAbort, if_neg (mt inFlight.mp last)]

end Sys2Proof.Machine
end

section
/-! PROOFS. Rings (R130): distances in a ring, the changes that a queue row may make, and that each of them keeps the row's
indices in its rings and the law of reservations (R136 to R141). -/

namespace Sys2Proof.Machine

/-! ### Distances in a ring -/

/-- The distance in a ring of `n` places from `a` forward to `b`: below `n`, and it leads from `a` to `b`, past the wrap or
not. -/
theorem ring_distance {a b n : Nat} (ha : a < n) (hb : b < n) :
    (b + n - a) % n < n ∧ (a + (b + n - a) % n = b ∨ a + (b + n - a) % n = b + n) := by
  refine ⟨Nat.mod_lt _ (by omega), ?_⟩
  by_cases ahead : a ≤ b
  · rw [show b + n - a = b - a + n by omega, Nat.add_mod_right, Nat.mod_eq_of_lt (by omega)]
    exact .inl (by omega)
  · rw [Nat.mod_eq_of_lt (by omega)]
    exact .inr (by omega)

/-- The place after `a` in a ring of `n` places. -/
theorem ring_next {a n : Nat} (ha : a < n) : (a + 1) % n = if a + 1 = n then 0 else a + 1 := by
  split
  · next wraps => rw [wraps, Nat.mod_self]
  · exact Nat.mod_eq_of_lt (by omega)

section
variable {r : QueueRow}

theorem QueueRow.hasRoom_iff (r : QueueRow) : r.hasRoom = true ↔ r.written + r.reserved < r.cplSize - 1 := decide_eq_true_iff

theorem QueueRow.written_lt (sizes : 0 < r.cplSize) : r.written < r.cplSize := Nat.mod_lt _ sizes

/-- The written count leads from the completion head to the tail. -/
theorem QueueRow.written_spec (head : r.cplHead < r.cplSize) (tail : r.cplTail < r.cplSize) : r.written < r.cplSize ∧
    (r.cplHead + r.written = r.cplTail ∨ r.cplHead + r.written = r.cplTail + r.cplSize) := ring_distance head tail

/-- An entry placed raises the written count by one, or finds the ring full and leaves it empty. -/
theorem QueueRow.written_entryPlaced (head : r.cplHead < r.cplSize) (tail : r.cplTail < r.cplSize) :
    r.entryPlaced.written = if r.written + 1 = r.cplSize then 0 else r.written + 1 := by
  have old := QueueRow.written_spec head tail
  have after := ring_next tail
  have placed := QueueRow.written_spec (r := r.entryPlaced) head (Nat.mod_lt _ (by omega))
  change r.entryPlaced.written < r.cplSize ∧ (r.cplHead + r.entryPlaced.written = (r.cplTail + 1) % r.cplSize
    ∨ r.cplHead + r.entryPlaced.written = (r.cplTail + 1) % r.cplSize + r.cplSize) at placed
  split at after
  · split <;> omega
  · split <;> omega

/-- A completion head that passes its check takes the entries freed off the written count (R137). -/
theorem QueueRow.written_headOk (head : r.cplHead < r.cplSize) (tail : r.cplTail < r.cplSize) {h : Nat}
    (passes : r.headOk h = true) : QueueRow.written { r with cplHead := h } + r.freedBy h = r.written := by
  obtain ⟨below, within⟩ := of_decide_eq_true passes
  have old := QueueRow.written_spec head tail
  have left := QueueRow.written_spec (r := { r with cplHead := h }) below tail
  have freed : r.freedBy h < r.cplSize ∧ (r.cplHead + r.freedBy h = h ∨ r.cplHead + r.freedBy h = h + r.cplSize) :=
    ring_distance head below
  dsimp only at left
  omega

end

/-! ### How a row may change -/

/-- The sizes and indices of a row's two rings (R130). -/
def QueueRow.rings (r : QueueRow) : (Nat × Nat × Nat) × (Nat × Nat × Nat) :=
  ((r.subSize, r.subHead, r.subTail), (r.cplSize, r.cplTail, r.cplHead))

/-- One change of a row: nothing of its rings changes and no reservation is added; it is put DISABLED; it starts with empty
rings (R132, R133); a reservation is granted while there is room (R139); an entry takes its place (R141); the submission
head goes on (R155, R164); the host writes a tail below the size (R136) or a completion head that passes its check (R137). -/
inductive QueueRow.Moves : QueueRow → QueueRow → Prop where
  | stands {r u : QueueRow} (rings : u.rings = r.rings) (reserved : u.reserved ≤ r.reserved)
      (enabled : u.state ≠ .disabled → r.state ≠ .disabled) : Moves r u
  | closes {r u : QueueRow} (state : u.state = .disabled) (sub : 0 < u.subSize) (cpl : 0 < u.cplSize) : Moves r u
  | starts {r u : QueueRow} (sub : 0 < r.subSize → 0 < u.subSize) (cpl : 0 < r.cplSize → 0 < u.cplSize)
      (rings : u.rings = ((u.subSize, 0, 0), (u.cplSize, 0, 0))) (reserved : u.reserved = 0) : Moves r u
  | reserves {r : QueueRow} (room : r.hasRoom = true) :
      Moves r { r with reserved := r.reserved + 1, refused := false }
  | places {r : QueueRow} : Moves r r.entryPlaced
  | advances {r : QueueRow} (n : Nat) : Moves r { r with subHead := (r.subHead + n) % r.subSize }
  | offers {r : QueueRow} {tail : Nat} (below : tail < r.subSize) : Moves r { r with subTail := tail }
  | frees {r : QueueRow} {head : Nat} (passes : r.headOk head = true) : Moves r { r with cplHead := head }

/-- A change that touches neither rings nor reservations nor state. -/
theorem QueueRow.Moves.same {r u : QueueRow} (rings : u.rings = r.rings) (reserved : u.reserved = r.reserved)
    (state : u.state = r.state) : r.Moves u := .stands rings (Nat.le_of_eq reserved) (state ▸ id)

/-- The law of reservations on one row: while it is not DISABLED, written entries and reservations together are at most the
completion ring's size less one (R139). -/
def QueueRow.Fits (r : QueueRow) : Prop := r.state ≠ .disabled → r.written + r.reserved ≤ r.cplSize - 1

section
variable {r u : QueueRow}

theorem QueueRow.Moves.inRange (move : r.Moves u) (range : r.InRange) : u.InRange := by
  obtain ⟨sub, cpl, indices⟩ := range
  cases move with
  | stands rings _ enabled =>
    simp only [QueueRow.rings, Prod.mk.injEq] at rings
    obtain ⟨⟨subSize, subHead, subTail⟩, cplSize, cplTail, cplHead⟩ := rings
    simp only [QueueRow.InRange, subSize, subHead, subTail, cplSize, cplTail, cplHead]
    exact ⟨sub, cpl, fun on => indices (enabled on)⟩
  | closes state sub' cpl' => exact ⟨sub', cpl', fun on => absurd state on⟩
  | starts sub' cpl' rings _ =>
    simp only [QueueRow.rings, Prod.mk.injEq, true_and] at rings
    obtain ⟨⟨subHead, subTail⟩, cplTail, cplHead⟩ := rings
    simp only [QueueRow.InRange, subHead, subTail, cplTail, cplHead]
    exact ⟨sub' sub, cpl' cpl, fun _ => ⟨sub' sub, sub' sub, cpl' cpl, cpl' cpl⟩⟩
  | reserves => exact ⟨sub, cpl, indices⟩
  | places =>
    refine ⟨sub, cpl, fun on => ?_⟩
    obtain ⟨head, tail, cplHead, _⟩ := indices on
    exact ⟨head, tail, cplHead, Nat.mod_lt _ cpl⟩
  | advances =>
    refine ⟨sub, cpl, fun on => ?_⟩
    obtain ⟨_, rest⟩ := indices on
    exact ⟨Nat.mod_lt _ sub, rest⟩
  | offers below =>
    refine ⟨sub, cpl, fun on => ?_⟩
    obtain ⟨head, _, rest⟩ := indices on
    exact ⟨head, below, rest⟩
  | frees passes =>
    refine ⟨sub, cpl, fun on => ?_⟩
    obtain ⟨head, tail, _, cplTail⟩ := indices on
    obtain ⟨below, _⟩ := of_decide_eq_true passes
    exact ⟨head, tail, below, cplTail⟩

theorem QueueRow.Moves.fits (move : r.Moves u) (range : r.InRange) (fits : r.Fits) : u.Fits := by
  obtain ⟨_, cpl, indices⟩ := range
  intro on
  cases move with
  | stands rings reserved enabled =>
    simp only [QueueRow.rings, Prod.mk.injEq] at rings
    obtain ⟨_, cplSize, cplTail, cplHead⟩ := rings
    have old := fits (enabled on)
    simp only [QueueRow.written, cplSize, cplTail, cplHead] at old ⊢
    omega
  | closes state => exact absurd state on
  | starts _ cpl' rings reserved =>
    simp only [QueueRow.rings, Prod.mk.injEq, true_and] at rings
    obtain ⟨_, cplTail, cplHead⟩ := rings
    simp [QueueRow.written, cplTail, cplHead, reserved]
  | reserves room =>
    have below := r.hasRoom_iff.mp room
    show r.written + (r.reserved + 1) ≤ r.cplSize - 1
    omega
  | places =>
    have ⟨_, _, head, tail⟩ := indices on
    have old : r.written + r.reserved ≤ r.cplSize - 1 := fits on
    have low := QueueRow.written_lt cpl
    rw [QueueRow.written_entryPlaced head tail]
    show _ + (r.reserved - 1) ≤ r.cplSize - 1
    split <;> omega
  | advances | offers => exact fits on
  | frees passes =>
    have ⟨_, _, head, tail⟩ := indices on
    have old : r.written + r.reserved ≤ r.cplSize - 1 := fits on
    have freed := QueueRow.written_headOk head tail passes
    show QueueRow.written { r with cplHead := _ } + r.reserved ≤ r.cplSize - 1
    omega

/-- A row comes from another by any number of changes, one after the other. -/
inductive QueueRow.Reaches (r : QueueRow) : QueueRow → Prop where
  | here : Reaches r r
  | moved {u v : QueueRow} (before : Reaches r u) (move : u.Moves v) : Reaches r v

theorem QueueRow.Reaches.inRange (reaches : r.Reaches u) (range : r.InRange) : u.InRange := by
  induction reaches with
  | here => exact range
  | moved _ move inside => exact move.inRange inside

theorem QueueRow.Reaches.fits (reaches : r.Reaches u) (range : r.InRange) (fits : r.Fits) : u.Fits := by
  induction reaches with
  | here => exact fits
  | moved before move below => exact move.fits (before.inRange range) below

end

end Sys2Proof.Machine
end

section
/-! PROOFS. Every operation of the model, and so every command, takes each queue row by changes that a row may make; so every
step keeps the indices in their rings (R130) and the law of reservations (R139). -/

namespace Sys2Proof.Machine

/-! ### The rows of a state -/

/-- Each row of `s` has come from the row of `o` by changes that a row may make. -/
structure State.RowsFrom (o s : State) : Prop where
  reaches : ∀ q, (o.queue q).Reaches (s.queue q)

namespace State.RowsFrom
variable {o s : State}

theorem refl (s : State) : s.RowsFrom s := ⟨fun _ => .here⟩

theorem inRange (w : o.RowsFrom s) (range : o.RingsInRange) : s.RingsInRange := fun q => (w.reaches q).inRange (range q)

/-- On rows whose indices lie in their rings the law of reservations lasts (R139). -/
theorem fit (w : o.RowsFrom s) (range : o.RingsInRange) (fit : o.ReservationsFit) : s.ReservationsFit := fun q =>
  (w.reaches q).fits (range q) (fit q)

theorem of_queues {u : State} (w : o.RowsFrom s) (same : u.queues = s.queues) : o.RowsFrom u :=
  ⟨fun q => by rw [show u.queue q = s.queue q from congrArg (·[q]) same]; exact w.reaches q⟩

theorem of_outside {u : State} (w : o.RowsFrom s) (same : u.outside = s.outside) : o.RowsFrom u :=
  w.of_queues (congrArg Outside.queues same)

theorem of_steady {u : State} (w : o.RowsFrom s) (same : u.steady = s.steady) : o.RowsFrom u :=
  w.of_queues (congrArg Steady.queues same)

/-- A reset leaves every row at its reset values (R148). -/
theorem of_reset (reset : s.queues = Vector.replicate 9 {}) : o.RowsFrom s := by
  refine ⟨fun q => .moved .here ?_⟩
  have row : s.queue q = {} := by simp [State.queue, reset]
  rw [row]
  exact .closes rfl (by decide) (by decide)

/-- One row makes one change. -/
theorem modQueue {q : QueueId} {f : QueueRow → QueueRow} (w : o.RowsFrom s) (move : (s.queue q).Moves (f (s.queue q))) :
    o.RowsFrom (s.modQueue q f) := by
  refine ⟨fun p => ?_⟩
  by_cases e : p = q
  · subst e
    rw [State.queue_modQueue_self]
    exact (w.reaches p).moved move
  · rw [State.queue_modQueue_ne _ _ e]
    exact w.reaches p

/-- Of two outcomes of a test both have come from the same rows. -/
theorem ite {p : Prop} [Decidable p] {u v : State} (yes : p → o.RowsFrom u) (no : ¬ p → o.RowsFrom v) :
    o.RowsFrom (if p then u else v) := by
  split
  · next holds => exact yes holds
  · next fails => exact no fails

theorem foldl {α : Type} {f : State → α → State} {l : List α} (w : o.RowsFrom s)
    (each : ∀ {u : State} {a : α}, o.RowsFrom u → o.RowsFrom (f u a)) : o.RowsFrom (l.foldl f s) :=
  List.foldlRecOn (motive := o.RowsFrom) l f w fun _ rows _ _ => each rows

/-! ### Queue Manager -/

theorem modControl {f : ControlUnit → ControlUnit} (w : o.RowsFrom s) : o.RowsFrom (s.modControl f) := w.of_queues rfl

theorem modRegs {f : Regs → Regs} (w : o.RowsFrom s) : o.RowsFrom (s.modRegs f) := w.of_queues rfl

theorem setTag {i : TagId} {t : Tag} (w : o.RowsFrom s) : o.RowsFrom (s.setTag i t) := w.of_queues rfl

theorem setFetch {q : QueueId} {f : Option FetchRecord} (w : o.RowsFrom s) : o.RowsFrom (s.setFetch q f) := w.of_queues rfl

theorem settle (w : o.RowsFrom s) : o.RowsFrom s.settle := w.of_outside (outside_settle s)

theorem handWrite {p : PostedWrite} (w : o.RowsFrom s) : o.RowsFrom (s.handWrite p) := w.of_queues rfl

theorem handEntry {q : QueueId} {c : Option CtxId} {irqNow : Bool} {e : Entry} (w : o.RowsFrom s) :
    o.RowsFrom (s.handEntry q c irqNow e) := w.handWrite.modQueue .places

theorem controlDone {e : Entry} (w : o.RowsFrom s) : o.RowsFrom (s.controlDone e) := w.handEntry

theorem oweMessage {q : QueueId} (w : o.RowsFrom s) : o.RowsFrom (s.oweMessage q) := by
  unfold State.oweMessage
  exact .ite (fun _ => w) fun _ =>
    .ite (fun _ => w.handWrite.modQueue (.same rfl rfl rfl)) fun _ => w.modQueue (.same rfl rfl rfl)

theorem oweNotice (w : o.RowsFrom s) : o.RowsFrom s.oweNotice := by
  unfold State.oweNotice
  exact .ite (fun _ => w) fun _ =>
    .ite (fun _ => w.handWrite.modQueue (.same rfl rfl rfl)) fun _ => w.modQueue (.same rfl rfl rfl)

theorem moderate {q : QueueId} {irqNow : Bool} (w : o.RowsFrom s) : o.RowsFrom (s.moderate q irqNow) := by
  unfold State.moderate
  extract_lets counted
  have rows : o.RowsFrom counted := w.modQueue (.same rfl rfl rfl)
  exact .ite (fun _ => rows.oweMessage) fun _ => .ite (fun _ => rows.modQueue (.same rfl rfl rfl)) fun _ => rows

theorem writeIrqEnable {on : Bool} (w : o.RowsFrom s) : o.RowsFrom (s.writeIrqEnable on) := by
  unfold State.writeIrqEnable
  exact .ite (fun _ => w.modRegs.foldl fun rows => .ite (fun _ => rows.oweMessage) fun _ => rows) fun _ => w.modRegs

theorem reserve {q : QueueId} (w : o.RowsFrom s) (room : (s.queue q).hasRoom = true) : o.RowsFrom (s.reserve q) :=
  w.modQueue (.reserves room)

theorem refuse {q : QueueId} (w : o.RowsFrom s) : o.RowsFrom (s.refuse q) := w.modQueue (.same rfl rfl rfl)

theorem giveBack {q : QueueId} (w : o.RowsFrom s) : o.RowsFrom (s.giveBack q) :=
  w.modQueue (.stands rfl (Nat.sub_le ..) id)

theorem freeContext {q : QueueId} {c : CtxId} (w : o.RowsFrom s) : o.RowsFrom (s.freeContext q c) := by
  have freed : o.RowsFrom (s.modCtx c fun _ => {}) := w.of_queues rfl
  exact freed.modQueue (.same rfl rfl rfl)

/-! ### Record Fetcher -/

theorem startFetch {q : QueueId} {c : CtxId} (w : o.RowsFrom s) (room : (s.queue q).hasRoom = true) :
    o.RowsFrom (s.startFetch q c) := by
  have counted : o.RowsFrom ((s.reserve q).modQueue q fun r => { r with outstanding := r.outstanding + 1 }) :=
    (w.reserve room).modQueue (.same rfl rfl rfl)
  exact counted.of_queues rfl

theorem visitQueue {q : QueueId} (w : o.RowsFrom s) : o.RowsFrom (s.visitQueue q) := by
  unfold State.visitQueue
  refine .ite (fun _ => ?_) fun _ => w
  split
  · exact w
  · exact .ite w.startFetch fun _ => w.refuse

theorem fetchEvaluate (w : o.RowsFrom s) : o.RowsFrom s.fetchEvaluate := by
  unfold State.fetchEvaluate
  exact .ite (fun _ => w) fun _ => w.foldl visitQueue

theorem halt {q : QueueId} {why : HaltReason} (w : o.RowsFrom s) : o.RowsFrom (s.halt q why) := by
  unfold State.halt
  refine .oweNotice (.modRegs (w.modQueue (.stands rfl (Nat.le_refl _) fun on => ?_)))
  dsimp only at on
  split at on
  · next active => simp [active]
  · exact on

theorem loadEnded {q : QueueId} {c : CtxId} {expected : Nat} {how : LoadEnd} (w : o.RowsFrom s) :
    o.RowsFrom (s.loadEnded q c expected how) := by
  unfold State.loadEnded
  extract_lets slots headMoved loaded
  have moved : o.RowsFrom headMoved := .setFetch (w.modQueue (.advances slots))
  have outcome : o.RowsFrom loaded := moved.of_outside (outside_loadOutcome ..)
  cases how with
  | short | extensionError => exact outcome.halt
  | allLoaded | oneSlot => exact outcome

/-! ### Control Unit -/

theorem controlTest (w : o.RowsFrom s) : o.RowsFrom s.controlTest := by
  unfold State.controlTest
  exact .ite (fun _ => .ite (fun room => .of_queues (w.reserve room) rfl) fun _ => .modControl w.refuse) fun _ => w

theorem runCfgq {r : ControlRecord} (w : o.RowsFrom s) : o.RowsFrom (s.runCfgq r) := by
  unfold State.runCfgq
  split
  · exact w.controlDone
  · refine .ite (fun _ => w.controlDone) fun disabled => .ite (fun _ => w.controlDone) fun _ => .controlDone (w.modQueue ?_)
    exact .closes (Decidable.not_not.mp disabled) (Nat.two_pow_pos _) (Nat.two_pow_pos _)

theorem runEnq {r : ControlRecord} (w : o.RowsFrom s) : o.RowsFrom (s.runEnq r) := by
  unfold State.runEnq
  split
  · exact w.controlDone
  · exact .ite (fun _ => w.controlDone) fun _ => .ite (fun _ => w.controlDone) fun _ =>
      .fetchEvaluate (.controlDone (w.modQueue (.starts id id rfl rfl)))

theorem runAbt {r : ControlRecord} (w : o.RowsFrom s) : o.RowsFrom (s.runAbt r) := by
  unfold State.runAbt
  split
  · exact w.controlDone
  · exact .ite (fun _ => w.controlDone) fun _ =>
      .controlDone (w.foldl fun rows => rows.of_outside (outside_abort ..))

theorem runInvp {r : ControlRecord} (w : o.RowsFrom s) : o.RowsFrom (s.runInvp r) := by
  unfold State.runInvp
  exact .ite (fun _ => .controlDone (w.of_steady (steady_invalidateAll s))) fun _ =>
    .ite (fun _ => .controlDone (w.of_steady (steady_invalidate ..))) fun _ => w.controlDone

theorem runRlst {r : ControlRecord} (w : o.RowsFrom s) : o.RowsFrom (s.runRlst r) := by
  have released (t : TargetId) : o.RowsFrom ({ s with targets := s.targets.set t none } : State) := w.of_queues rfl
  unfold State.runRlst
  exact .ite (fun _ => (released _).controlDone) fun _ => w.controlDone

theorem runQryq {r : ControlRecord} (w : o.RowsFrom s) : o.RowsFrom (s.runQryq r) := by
  unfold State.runQryq
  exact .ite (fun _ => w.controlDone) fun _ => w.controlDone

theorem disable {q : QueueId} (w : o.RowsFrom s) : o.RowsFrom (s.disable q) := by
  unfold State.disable
  extract_lets closed told
  have rows : o.RowsFrom closed := .modRegs (w.modQueue (.stands rfl (Nat.le_refl _) fun on => absurd rfl on))
  have owed : o.RowsFrom told := .ite (fun _ => rows.oweMessage) fun _ => rows
  exact owed.modQueue (.same rfl rfl rfl)

theorem stopQueue {q : QueueId} (w : o.RowsFrom s) : o.RowsFrom (s.stopQueue q) := by
  unfold State.stopQueue
  split
  · next active => exact .modRegs (w.modQueue (.stands rfl (Nat.le_refl _) fun _ => by simp [active]))
  · next halted => exact .modRegs (w.modQueue (.stands rfl (Nat.le_refl _) fun _ => by simp [halted]))
  · exact w

theorem stopAndMark {q : QueueId} {abortMode : Bool} (w : o.RowsFrom s) : o.RowsFrom (s.stopAndMark q abortMode) := by
  unfold State.stopAndMark
  exact .ite (fun _ => w.stopQueue.foldl fun rows => rows.of_outside (outside_abort ..)) fun _ => w.stopQueue

theorem runDisq {r : ControlRecord} (w : o.RowsFrom s) : o.RowsFrom (s.runDisq r) := by
  unfold State.runDisq
  split
  · exact w.controlDone
  · refine .ite (fun _ => w.controlDone) fun _ => .ite (fun _ => w.controlDone) fun _ => .ite (fun _ => ?_) fun _ => ?_
    · exact .ite (fun _ => w.modControl) fun _ => w.stopAndMark.modControl
    · exact w.stopAndMark.disable.controlDone

theorem pulseBegin (w : o.RowsFrom s) : o.RowsFrom s.pulseBegin := w.of_queues rfl

theorem runRstt {r : ControlRecord} (w : o.RowsFrom s) : o.RowsFrom (s.runRstt r) := by
  unfold State.runRstt
  refine .ite (fun _ => w.modControl) fun _ => ?_
  unfold State.pulseRequest
  split
  · exact w.of_queues rfl
  · exact w.of_queues rfl

theorem retakeHeld (w : o.RowsFrom s) : o.RowsFrom s.retakeHeld := by
  unfold State.retakeHeld
  split
  · exact .controlTest (.ite (fun _ => w.modControl.runDisq) fun _ => w.modControl.runRstt)
  · exact w

theorem pendingDone {done rest : List PendingEntry} (w : o.RowsFrom s) : o.RowsFrom (s.pendingDone done rest) := by
  unfold State.pendingDone
  exact .ite (fun _ => w) fun _ => .retakeHeld (w.modControl.foldl controlDone)

theorem queueTest {q : QueueId} (w : o.RowsFrom s) : o.RowsFrom (s.queueTest q) := by
  unfold State.queueTest
  exact .ite (fun _ => .pendingDone w.disable) fun _ => w

/-- A control record is taken (R164). -/
theorem takeSlot {run : State → ControlRecord → State} {slot : List Byte} {isRow : Byte → Bool} (w : o.RowsFrom s)
    (runs : ∀ {u : State} {r : ControlRecord}, o.RowsFrom u → o.RowsFrom (run u r)) :
    o.RowsFrom (s.takeSlot slot isRow run) := by
  unfold State.takeSlot
  split
  · exact w
  · exact .ite (fun _ => w) fun _ => .ite (fun _ => w.setTag) fun _ =>
      .settle (.controlTest (runs (.modControl (w.setTag.modQueue (.advances 1)))))

/-! ### Returns of host reads -/

theorem fetchEnded {q : QueueId} (w : o.RowsFrom s) : o.RowsFrom (s.fetchEnded q) := .settle w.queueTest.fetchEvaluate

theorem loadEnd {q : QueueId} {c : CtxId} {expected : Nat} {how : LoadEnd} (w : o.RowsFrom s) :
    o.RowsFrom (s.loadEnd q c expected how) := .fetchEnded w.loadEnded

theorem headerReturned {q : QueueId} {c : CtxId} {r : Response} (w : o.RowsFrom s) :
    o.RowsFrom (s.headerReturned q c r) := by
  unfold State.headerReturned
  split
  · exact .fetchEnded (.halt (.of_outside w.freeContext.giveBack.setFetch (outside_fenceRelease ..)))
  · extract_lets _ _ _ loaded
    have rows : o.RowsFrom loaded := w.of_queues rfl
    exact .ite (fun _ => rows.loadEnd) fun _ => .ite (fun _ => rows.loadEnd) fun _ => .ite (fun _ => rows.loadEnd) fun _ =>
      rows.of_queues rfl

theorem extensionReturned {q : QueueId} {c : CtxId} {n : Nat} {r : Response} (w : o.RowsFrom s) :
    o.RowsFrom (s.extensionReturned q c n r) := by
  unfold State.extensionReturned
  split
  · exact w
  · dsimp only
    split
    · exact .ite (fun _ => .loadEnd (w.of_queues rfl)) fun _ => w.of_queues rfl
    · exact .ite (fun _ => .loadEnd (w.of_queues rfl)) fun _ => w.of_queues rfl

theorem segmentRead {c : CtxId} {k : ChunkId} {role : Role} {g : Segment} {place : Nat} {r : Response}
    (w : o.RowsFrom s) : o.RowsFrom (s.segmentRead c k role g place r) := by
  unfold State.segmentRead
  refine .ite (fun _ => ?_) fun _ => ?_
  · unfold State.overtakenRead
    refine .ite (fun _ => w.of_queues rfl) fun _ => .ite (fun _ => w.of_queues rfl) fun _ => ?_
    split
    · exact w
    · exact w.of_queues rfl
  · split
    · exact w.of_queues rfl
    · exact w.of_queues rfl

theorem chunkRead {c : CtxId} {k : ChunkId} {place : Nat} {r : Response} (w : o.RowsFrom s) :
    o.RowsFrom (s.chunkRead c k place r) := by
  unfold State.chunkRead
  split
  · exact w
  · split
    · exact w.of_outside (outside_freeIfDone ..)
    · refine .ite (fun _ => w) fun _ => ?_
      split
      · exact w
      · exact w.segmentRead

theorem handResponse {ref : ReadRef} {r : Response} (w : o.RowsFrom s) : o.RowsFrom (s.handResponse ref r) := by
  unfold State.handResponse
  split
  · exact w.headerReturned
  · exact w.extensionReturned
  · split
    · exact .modControl w.giveBack
    · exact w
  · exact w.of_outside (outside_profileReturned ..)
  · exact .settle (w.chunkRead.of_outside (outside_afterDataRead ..))

/-- A read returns (R160). -/
theorem readReturns {i : TagId} {r : Response} {ofRow : ReadRef → Bool} (w : o.RowsFrom s) :
    o.RowsFrom (s.readReturns i r ofRow) := by
  unfold State.readReturns
  split
  · exact w
  · exact .ite (fun _ => w) fun _ => .ite (fun _ => w.setTag) fun _ => w.setTag.handResponse

/-! ### Target bus -/

theorem accessEnds {a : Access} {how : AccessEnd} (w : o.RowsFrom s) : o.RowsFrom (s.accessEnds a how) := by
  unfold State.accessEnds
  extract_lets _ quarantined released
  have kept : o.RowsFrom quarantined := .ite (fun _ => w.of_queues rfl) fun _ => w
  have free : o.RowsFrom released := kept.of_queues rfl
  refine .ite (fun _ => free) fun _ => ?_
  have handled : o.RowsFrom (released.ownerEnd a how).lockEvaluate :=
    (free.of_steady (steady_ownerEnd ..)).of_outside (outside_lockEvaluate _)
  exact .settle (.ite (fun _ => handled.pulseBegin) fun _ => handled)

theorem openPhaseDone {a : Access} {response : BitVec 2} (w : o.RowsFrom s) : o.RowsFrom (s.openPhaseDone a response) := by
  unfold State.openPhaseDone
  split
  · exact w.of_queues rfl
  all_goals exact w.accessEnds

theorem storeBeat {a : Access} {lines : BitVec 32} (w : o.RowsFrom s) : o.RowsFrom (s.storeBeat a lines) := by
  unfold State.storeBeat
  split
  · refine .ite (fun _ => w.of_queues rfl) fun _ => .ite (fun _ => w.of_queues rfl) fun _ => ?_
    split
    · exact w.of_queues rfl
    · exact w
  · exact w

theorem strobeDone {a : Access} {flow : Bool} {lines : BitVec 32} (w : o.RowsFrom s) :
    o.RowsFrom (s.strobeDone a flow lines) := by
  unfold State.strobeDone
  refine .ite (fun _ => w.accessEnds) fun _ => ?_
  extract_lets recovered done
  have stored : o.RowsFrom (if a.direction = .read then s.storeBeat a lines else s) :=
    .ite (fun _ => w.storeBeat) fun _ => w
  have rows : o.RowsFrom recovered := stored.of_queues rfl
  exact .ite (fun _ => rows.accessEnds) fun _ => rows.of_queues rfl

theorem startFirstPhase {a : Access} (w : o.RowsFrom s) : o.RowsFrom (s.startFirstPhase a) := by
  unfold State.startFirstPhase
  exact .ite (fun _ => w.of_queues rfl) fun _ => w.of_queues rfl

theorem grantAccess {a : Access} {l r n : Nat} (w : o.RowsFrom s) : o.RowsFrom (s.grantAccess a l r n) := by
  unfold State.grantAccess
  extract_lets granted claimed
  have rows : o.RowsFrom granted := w.of_queues rfl
  have staged : o.RowsFrom claimed := .of_outside (s := granted.modCtx a.owner _) (rows.of_queues rfl) (outside_claimSecond _ _)
  exact .ite (fun _ => staged) fun _ => staged.startFirstPhase

theorem nextPulse (w : o.RowsFrom s) : o.RowsFrom s.nextPulse := by
  unfold State.nextPulse
  exact .ite (fun _ => w.pulseBegin) fun _ => w

theorem timerDue {c : CtxId} {k : TimerKind} (w : o.RowsFrom s) : o.RowsFrom (s.timerDue c k) := by
  unfold State.timerDue
  dsimp only
  split
  · exact .ite (fun _ => .settle (w.of_queues rfl)) fun _ => w
  · exact w

theorem pulseEnds {due : Nat} (w : o.RowsFrom s) : o.RowsFrom (s.pulseEnds due) := by
  unfold State.pulseEnds
  extract_lets _ quiet invalidated
  have cleared : o.RowsFrom ({ quiet with targets := Vector.replicate 16 none } : State) := w.of_queues rfl
  have kept : o.RowsFrom invalidated := cleared.of_steady (steady_invalidateAll _)
  exact .settle (.nextPulse (.of_queues kept.pendingDone rfl))

/-! ### Completion entries -/

theorem freeChunksOf {c : CtxId} (w : o.RowsFrom s) : o.RowsFrom (s.freeChunksOf c) :=
  w.foldl fun rows => rows.of_outside (outside_freeChunk ..)

theorem handContext {c : CtxId} {q : QueueId} {e : Entry} (w : o.RowsFrom s) : o.RowsFrom (s.handContext c q e) := by
  unfold State.handContext
  extract_lets handed
  have rows : o.RowsFrom handed := .of_queues (w.handEntry (q := q)) rfl
  exact rows.freeChunksOf.settle

theorem contextIssued {q : QueueId} {c : CtxId} (w : o.RowsFrom s) : o.RowsFrom (s.contextIssued q c) := by
  have released : o.RowsFrom ((s.freeChunksOf c).lockRelease c) := w.freeChunksOf.of_outside (outside_lockRelease ..)
  have fenced : o.RowsFrom ((((s.freeChunksOf c).lockRelease c).freeContext q c).fenceRelease q) :=
    released.freeContext.of_outside (outside_fenceRelease ..)
  exact fenced.queueTest.fetchEvaluate.settle

/-! ### Register window and INDEX_PORT -/

theorem takeEnable (w : o.RowsFrom s) : o.RowsFrom s.takeEnable :=
  .controlTest (.modRegs (w.modQueue (.starts (fun _ => Nat.two_pow_pos _) (fun _ => Nat.two_pow_pos _) rfl rfl)))

theorem indexErrorSeen {kind : IndexErrorKind} {queue : BitVec 4} (w : o.RowsFrom s) :
    o.RowsFrom (s.indexErrorSeen kind queue) := by
  unfold State.indexErrorSeen
  exact .ite (fun _ => w) fun _ => w.modRegs.oweNotice

theorem tailTaken {q : QueueId} (w : o.RowsFrom s) : o.RowsFrom (s.tailTaken q) := by
  unfold State.tailTaken
  exact .ite (fun _ => .controlTest (.ite (fun _ => w.modControl) fun _ => w)) fun _ => w.fetchEvaluate

theorem roomMade {q : QueueId} (w : o.RowsFrom s) : o.RowsFrom (s.roomMade q) := by
  unfold State.roomMade
  exact .ite (fun _ => .ite (fun _ => w.modControl.controlTest) fun _ => w) fun _ => w.fetchEvaluate

end State.RowsFrom

/-- An INDEX_PORT write that passes reaches a queue that is not DISABLED and whose row passes check 3 (R136). -/
theorem State.indexCheck_ok {s : State} {f : BitVec 4} {inRange : QueueRow → Bool} {kind : IndexErrorKind} {q : QueueId}
    (passes : s.indexCheck f inRange kind = .ok q) : (s.queue q).state ≠ .disabled ∧ inRange (s.queue q) = true := by
  unfold State.indexCheck at passes
  split at passes
  · cases passes
  · split at passes
    · cases passes
    · next on =>
      split at passes
      · next within =>
        cases passes
        exact ⟨on, within⟩
      · cases passes

/-! ### Every command -/

/-- An outcome that is a next state is one whose rows have come from those of `o`. -/
def NextRowsFrom (o : State) (out : Host.Outcome State Fault Refusal) : Prop := ∀ t, out = .next t → o.RowsFrom t

section
variable {o s : State}

theorem State.RowsFrom.next (w : o.RowsFrom s) : NextRowsFrom o (.next s) := fun _ e => by cases e; exact w

theorem NextRowsFrom.ite {p : Prop} [Decidable p] {a b : Host.Outcome State Fault Refusal} (yes : p → NextRowsFrom o a)
    (no : ¬ p → NextRowsFrom o b) : NextRowsFrom o (if p then a else b) := by
  split
  · next holds => exact yes holds
  · next fails => exact no fails

variable (w : o.RowsFrom s)
include w

theorem execFunctionResetComplete_rowsFrom : NextRowsFrom o (execFunctionResetComplete s) := by
  unfold execFunctionResetComplete
  exact .ite (fun _ => .next (.of_reset rfl)) fun _ => w.next

theorem execEnable_rowsFrom (value : BitVec 32) : NextRowsFrom o (execEnable value s) := by
  unfold execEnable
  exact .ite (fun _ => w.next) fun _ => .ite (fun _ => w.writeIrqEnable.next) fun _ =>
    .ite (fun _ => w.writeIrqEnable.takeEnable.next) fun _ => w.takeEnable.writeIrqEnable.next

theorem execReset_rowsFrom (value : BitVec 32) : NextRowsFrom o (execReset value s) := by
  unfold execReset
  exact .ite (fun _ => w.next) fun _ => .next (w.of_queues rfl)

theorem execIrqEnable_rowsFrom (value : BitVec 32) : NextRowsFrom o (execIrqEnable value s) := by
  unfold execIrqEnable
  exact .ite (fun _ => w.next) fun _ => w.writeIrqEnable.next

theorem execIndexErrorClear_rowsFrom (value : BitVec 32) : NextRowsFrom o (execIndexErrorClear value s) := by
  unfold execIndexErrorClear
  exact .ite (fun _ => w.modRegs.next) fun _ => w.next

theorem execSubTail_rowsFrom (queue : BitVec 4) (value : BitVec 16) : NextRowsFrom o (execSubTail queue value s) := by
  unfold execSubTail
  refine .ite (fun _ => w.next) fun _ => ?_
  split
  · exact w.indexErrorSeen.next
  · next passes =>
    obtain ⟨_, below⟩ := State.indexCheck_ok passes
    exact (w.modQueue (.offers (of_decide_eq_true below))).tailTaken.next

theorem execCplHead_rowsFrom (queue : BitVec 4) (value : BitVec 16) : NextRowsFrom o (execCplHead queue value s) := by
  unfold execCplHead
  refine .ite (fun _ => w.next) fun _ => ?_
  split
  · exact w.indexErrorSeen.next
  · next q passes =>
    obtain ⟨_, headOk⟩ := State.indexCheck_ok passes
    have freed : o.RowsFrom (s.modQueue q fun r => { r with cplHead := value.toNat }) := w.modQueue (.frees headOk)
    exact .ite (fun _ => freed.roomMade.next) fun _ => freed.next

theorem execTagGrant_rowsFrom : NextRowsFrom o (execTagGrant s) := by
  unfold execTagGrant
  refine .ite (fun _ => w.next) fun _ => ?_
  split
  · unfold State.issueRead State.countIssued
    split
    · exact .next (w.of_queues rfl)
    · exact .next (w.of_queues rfl)
  · exact w.next

theorem execControlReadError_rowsFrom : NextRowsFrom o (execControlReadError s) := by
  unfold execControlReadError
  split
  · exact w.next
  · exact w.readReturns.next

theorem execHostReadTimeout_rowsFrom (i : TagId) : NextRowsFrom o (execHostReadTimeout i s) := by
  unfold execHostReadTimeout
  split
  · next issued _ =>
    have late : o.RowsFrom (s.untilUs (issued + 10000)) := w.of_queues rfl
    exact .ite (fun _ => late.setTag.next) fun _ => late.setTag.handResponse.next
  · exact w.next

theorem execStaleTagExpiry_rowsFrom (i : TagId) : NextRowsFrom o (execStaleTagExpiry i s) := by
  unfold execStaleTagExpiry
  split
  · exact .next (w.of_queues rfl)
  · exact w.next

theorem execStaleResponse_rowsFrom (i : TagId) : NextRowsFrom o (execStaleResponse i s) := by
  unfold execStaleResponse
  split
  · exact w.setTag.next
  · exact w.next

theorem execBusGrant_rowsFrom : NextRowsFrom o (execBusGrant s) := by
  unfold execBusGrant
  split
  · exact w.next
  · split
    · exact w.grantAccess.next
    · exact w.next

theorem execTurnOffWaitEnd_rowsFrom : NextRowsFrom o (execTurnOffWaitEnd s) := by
  unfold execTurnOffWaitEnd
  split
  · next a _ =>
    have reached : o.RowsFrom (s.until (s.bus.turnOff.elim 0 fun r => r.2)) := w.of_queues rfl
    exact .ite (fun _ => .next (.of_queues (reached.startFirstPhase (a := a)) rfl)) fun _ => w.next
  · exact w.next

theorem execOpenPhaseEnd_rowsFrom (hold : Bool) (response : BitVec 2) : NextRowsFrom o (execOpenPhaseEnd hold response s) := by
  unfold execOpenPhaseEnd
  split
  · exact w.next
  · next a _ =>
    have lasted : o.RowsFrom (s.elapse (max 1 a.snapshot.setup)) := w.of_queues rfl
    exact .ite (fun _ => .next (lasted.of_queues rfl)) fun _ => lasted.openPhaseDone.next

theorem execBeatEnd_rowsFrom (hold flow : Bool) (lines : BitVec 32) : NextRowsFrom o (execBeatEnd hold flow lines s) := by
  unfold execBeatEnd
  split
  · exact w.next
  · next a _ =>
    have lasted : o.RowsFrom (s.elapse (max 1 a.snapshot.strobe)) := w.of_queues rfl
    exact .ite (fun _ => .next (lasted.of_queues rfl)) fun _ => lasted.strobeDone.next

theorem execHoldDrop_rowsFrom (response : BitVec 2) (flow : Bool) (lines : BitVec 32) :
    NextRowsFrom o (execHoldDrop response flow lines s) := by
  unfold execHoldDrop
  split
  · exact w.next
  · dsimp only
    split
    · exact w.openPhaseDone.next
    · exact w.strobeDone.next
    · exact w.next

theorem execHoldTimeout_rowsFrom : NextRowsFrom o (execHoldTimeout s) := by
  unfold execHoldTimeout
  split
  · exact w.next
  · next a started _ =>
    have late : o.RowsFrom (s.untilUs (started + a.snapshot.holdLimit)) := w.of_queues rfl
    exact late.accessEnds.next

theorem execCompletionHandoff_rowsFrom (c : CtxId) : NextRowsFrom o (execCompletionHandoff c s) := by
  unfold execCompletionHandoff
  split
  · exact .ite (fun _ => w.handContext.next) fun _ => w.next
  · exact w.next

theorem execEntryIssued_rowsFrom : NextRowsFrom o (execEntryIssued s) := by
  have popped : o.RowsFrom s.popWrite := w.of_queues rfl
  unfold execEntryIssued
  split
  · dsimp only
    split
    · exact popped.moderate.next
    · exact popped.moderate.contextIssued.next
  · exact w.next

theorem execDataWriteIssued_rowsFrom : NextRowsFrom o (execDataWriteIssued s) := by
  have popped : o.RowsFrom s.popWrite := w.of_queues rfl
  unfold execDataWriteIssued
  split
  · exact .next (.settle (popped.of_outside (outside_freeIfDone ..)))
  · exact w.next

theorem execMessageIssued_rowsFrom : NextRowsFrom o (execMessageIssued s) := by
  unfold execMessageIssued
  split
  · exact .next (w.of_queues rfl)
  · exact w.next

theorem execDelayTimerDue_rowsFrom (q : QueueId) : NextRowsFrom o (execDelayTimerDue q s) := by
  unfold execDelayTimerDue
  split
  · exact w.next
  · next due _ =>
    have late : o.RowsFrom (s.untilUs due) := w.of_queues rfl
    have idle : o.RowsFrom ((s.untilUs due).modQueue q fun r => { r with delayTimer := none }) :=
      late.modQueue (.same rfl rfl rfl)
    exact .ite (fun _ => idle.oweMessage.next) fun _ => idle.next

theorem execPulseEnd_rowsFrom : NextRowsFrom o (execPulseEnd s) := by
  unfold execPulseEnd
  split
  · exact w.pulseEnds.next
  · exact w.next

theorem execPowerOnPulseEnd_rowsFrom : NextRowsFrom o (execPowerOnPulseEnd s) := by
  unfold execPowerOnPulseEnd
  split
  · next due _ =>
    have late : o.RowsFrom (s.untilUs due) := w.of_queues rfl
    have invalidated := late.of_steady (steady_invalidateAll _)
    exact .next (.settle (.nextPulse (invalidated.of_queues rfl)))
  · exact w.next

/-- Every command takes each row by the changes that a row may make. -/
theorem exec_rowsFrom (c : Instr) : NextRowsFrom o (exec c s) := by
  cases c with
  | powerOnReset | linkReset => exact .next (.of_reset rfl)
  | functionResetComplete => exact execFunctionResetComplete_rowsFrom w
  | enable value => exact execEnable_rowsFrom w value
  | reset value => exact execReset_rowsFrom w value
  | irqEnable value => exact execIrqEnable_rowsFrom w value
  | indexErrorClear value => exact execIndexErrorClear_rowsFrom w value
  | registerWrite => exact w.modRegs.next
  | subTail queue value => exact execSubTail_rowsFrom w queue value
  | cplHead queue value => exact execCplHead_rowsFrom w queue value
  | tagGrant => exact execTagGrant_rowsFrom w
  | headerSlotReturn | extensionSlotReturn | profileLoadReturn | dataReadReturn => exact w.readReturns.next
  | hostReadTimeout tag => exact execHostReadTimeout_rowsFrom w tag
  | staleTagExpiry tag => exact execStaleTagExpiry_rowsFrom w tag
  | staleResponse tag => exact execStaleResponse_rowsFrom w tag
  | busGrant => exact execBusGrant_rowsFrom w
  | turnOffWaitEnd => exact execTurnOffWaitEnd_rowsFrom w
  | openPhaseEnd hold response => exact execOpenPhaseEnd_rowsFrom w hold response
  | beatEnd hold flow lines => exact execBeatEnd_rowsFrom w hold flow lines
  | holdDrop response flow lines => exact execHoldDrop_rowsFrom w response flow lines
  | holdTimeout => exact execHoldTimeout_rowsFrom w
  | retryTimerDue | pollTimerDue | flowTimerDue => exact w.timerDue.next
  | completionHandoff c => exact execCompletionHandoff_rowsFrom w c
  | entryIssued => exact execEntryIssued_rowsFrom w
  | dataWriteIssued => exact execDataWriteIssued_rowsFrom w
  | messageIssued => exact execMessageIssued_rowsFrom w
  | delayTimerDue q => exact execDelayTimerDue_rowsFrom w q
  | controlReadError => exact execControlReadError_rowsFrom w
  | unknownCommand | mark => exact (w.takeSlot .controlDone).next
  | cfgq => exact (w.takeSlot .runCfgq).next
  | enq => exact (w.takeSlot .runEnq).next
  | disq => exact (w.takeSlot .runDisq).next
  | abt => exact (w.takeSlot .runAbt).next
  | invp => exact (w.takeSlot .runInvp).next
  | rlst => exact (w.takeSlot .runRlst).next
  | rstt => exact (w.takeSlot .runRstt).next
  | qryq => exact (w.takeSlot .runQryq).next
  | pulseEnd => exact execPulseEnd_rowsFrom w
  | powerOnPulseEnd => exact execPowerOnPulseEnd_rowsFrom w

end

theorem step_rowsFrom {s t : State} (answer : step s = .next t) : s.RowsFrom t := by
  unfold step at answer
  split at answer
  · have idled : s.RowsFrom s.idle := .of_queues (.refl s) rfl
    exact idled.next t answer
  · next c rest _ =>
    have queued : s.RowsFrom { s with pending := rest } := .of_queues (.refl s) rfl
    exact exec_rowsFrom queued c t answer

/-- Settles O11: every change that a row may make keeps its indices in its rings. -/
theorem stepKeepsRingsInRange : Obligations.StepKeepsRingsInRange :=
  fun _ _ range answer => (step_rowsFrom answer).inRange range

/-- Settles O26: every change that a row may make keeps the law of reservations; its clauses by the arithmetic of a ring. -/
theorem reservationLaw : Obligations.ReservationLaw := by
  refine ⟨fun s t range fit answer => (step_rowsFrom answer).fit range fit, ?room, ?granted, ?within, ?placed, ?freed⟩
  case room => exact QueueRow.hasRoom_iff
  case granted => exact fun s q => State.queue_modQueue_self ..
  case within =>
    intro r room
    have below := r.hasRoom_iff.mp room
    omega
  case placed =>
    intro r ⟨_, _, indices⟩ on reserved fits
    obtain ⟨_, _, head, tail⟩ := indices on
    refine ⟨?_, Nat.sub_add_cancel reserved⟩
    rw [QueueRow.written_entryPlaced head tail, if_neg (by omega)]
  case freed =>
    intro r head ⟨_, _, indices⟩ on passes
    obtain ⟨_, _, cplHead, cplTail⟩ := indices on
    exact QueueRow.written_headOk cplHead cplTail passes

end Sys2Proof.Machine
end

section
/-! PROOFS. Completion entries and messages (R141 to R146): the place an entry takes, moderation, messages owed, and the
messages that a write of IRQ_ENABLE and of ENABLE sends (R132, R145, R181). -/

namespace Sys2Proof.Machine

/-! ### What handing a write leaves alone -/

/-- Between `s` and `t` nothing has changed but registers, queue rows and the posted writes. -/
def State.OnlyPosts (s t : State) : Prop :=
  t = { s with regs := t.regs, queues := t.queues, port := { s.port with
    issueQueue := t.port.issueQueue, held := t.port.held } }

section
variable {s t u : State} {q : QueueId}

theorem State.OnlyPosts.refl (s : State) : s.OnlyPosts s := rfl

theorem State.OnlyPosts.trans (first : s.OnlyPosts t) (second : t.OnlyPosts u) : s.OnlyPosts u := by
  rw [State.OnlyPosts] at first
  rw [first] at second
  exact second

theorem State.onlyPosts_modRegs (s : State) (f : Regs → Regs) : s.OnlyPosts (s.modRegs f) := rfl

theorem State.onlyPosts_modQueue (s : State) (q : QueueId) (f : QueueRow → QueueRow) : s.OnlyPosts (s.modQueue q f) := rfl

@[simp] theorem State.queue_modRegs (s : State) (f : Regs → Regs) (q : QueueId) : (s.modRegs f).queue q = s.queue q := rfl

theorem State.onlyPosts_handWrite (s : State) (w : PostedWrite) : s.OnlyPosts (s.handWrite w) := by
  unfold State.handWrite State.OnlyPosts State.modPort
  dsimp only
  split <;> rfl

/-! ### The place of an entry (R141) -/

/-- The row of an entry just placed, with the tail's wrap spelled out. -/
theorem QueueRow.entryPlaced_eq {r : QueueRow} (tail : r.cplTail < r.cplSize) : r.entryPlaced = { r with
    cplTail := if r.cplTail + 1 = r.cplSize then 0 else r.cplTail + 1
    reserved := r.reserved - 1
    phase := if r.cplTail + 1 = r.cplSize then !r.phase else r.phase } := by
  rw [QueueRow.entryPlaced, ring_next tail]

/-- Settles O27: the posted writes and the rows by what handing an entry does to each. -/
theorem entryTakesPlaceAtTail : Obligations.EntryTakesPlaceAtTail := by
  intro s q c n e ⟨_, _, indices⟩ on
  obtain ⟨_, _, _, tail⟩ := indices on
  refine ⟨posted_handEntry .., ?_, fun p other => queue_handEntry_ne s other c n e,
    (s.onlyPosts_handWrite _).trans (State.onlyPosts_modQueue ..)⟩
  rw [queue_handEntry_self, QueueRow.entryPlaced_eq tail]

/-! ### Messages owed (R143 to R145) -/

theorem State.oweMessage_resetting (resetting : s.regs.resetting = true) : s.oweMessage q = s := if_pos resetting

theorem State.oweMessage_sends (running : s.regs.resetting = false) (on : s.regs.irqEnable = true) :
    s.oweMessage q = (s.handWrite (.message q)).modQueue q QueueRow.messageSent := by
  simp [State.oweMessage, running, on]

theorem State.oweMessage_waits (running : s.regs.resetting = false) (off : s.regs.irqEnable = false) :
    s.oweMessage q = s.modQueue q fun r => { r with messageDue := true, delayTimer := none } := by
  simp [State.oweMessage, running, off]

/-- Two changes of one row, one after the other, are one change. -/
theorem State.modQueue_modQueue (s : State) (q : QueueId) (f g : QueueRow → QueueRow) :
    (s.modQueue q f).modQueue q g = s.modQueue q fun r => g (f r) := by
  simp [State.modQueue]

/-- Settles O30: moderation by its three ways on, a message owed by the three settings of RESETTING and IRQ_ENABLE. -/
theorem moderationOwesMessages : Obligations.ModerationOwesMessages := by
  refine ⟨fun s q n => ?moderation,
    fun s q => ⟨State.oweMessage_resetting, fun running on => ?sent, State.oweMessage_waits⟩, fun s q due timer => ?due⟩
  case moderation =>
    intro r k u
    have counted : (s.modQueue q fun x => { x with count := min 65535 (x.count + 1) }) = u := rfl
    have row : u.queue q = { r with count := k } := State.queue_modQueue_self ..
    unfold State.moderate
    simp only [counted, row, Bool.or_eq_true, decide_eq_true_eq]
    exact ite_congr rfl (fun _ => rfl) fun _ => ite_congr rfl (fun _ => State.modQueue_modQueue ..) fun _ => rfl
  case sent =>
    rw [State.oweMessage_sends running on]
    refine ⟨by rw [posted_modQueue, posted_handWrite], ?_, fun p other => ?_⟩
    · rw [State.queue_modQueue_self, queue_handWrite, QueueRow.messageSent]
    · rw [State.queue_modQueue_ne _ _ other, queue_handWrite]
  case due =>
    simp only [exec, execDelayTimerDue, timer, State.queue_modQueue_self]
    exact (apply_ite Host.Outcome.next _ _ _).symm

/-! ### A write of IRQ_ENABLE (R145) -/

/-- The queue owes a message once IRQ_ENABLE is set: one is due, or the count has reached the threshold (R145). -/
def QueueRow.owes (r : QueueRow) : Bool := r.messageDue || decide (r.threshold ≤ r.count)

/-- The message of a queue that owes one is sent. -/
def State.sendOwed (s : State) (q : QueueId) : State := if (s.queue q).owes then s.oweMessage q else s

theorem State.writeIrqEnable_eq (s : State) (on : Bool) : s.writeIrqEnable on =
    if on && !s.regs.irqEnable then (List.finRange 9).foldl State.sendOwed (s.modRegs fun r => { r with irqEnable := on })
    else s.modRegs fun r => { r with irqEnable := on } := rfl

/-- Between `s` and `t` the queues listed that owe a message have sent it, in the order of the list. -/
structure State.SendsOwed (s t : State) (l : List QueueId) : Prop where
  posted : t.posted = s.posted ++ (l.filter fun q => (s.queue q).owes).map PostedWrite.message
  rows : ∀ q, t.queue q = if q ∈ l ∧ (s.queue q).owes = true then (s.queue q).messageSent else s.queue q
  regs : t.regs = s.regs
  rest : s.OnlyPosts t

theorem State.sendOwed_sends (running : s.regs.resetting = false) (on : s.regs.irqEnable = true) (q : QueueId) :
    s.SendsOwed (s.sendOwed q) [q] := by
  unfold State.sendOwed
  split
  · next owes =>
    rw [State.oweMessage_sends running on]
    refine ⟨by simp [owes], fun p => ?_, rfl, (s.onlyPosts_handWrite _).trans (State.onlyPosts_modQueue ..)⟩
    by_cases same : p = q
    · subst same
      simp [owes]
    · simp [same, State.queue_modQueue_ne]
  · next owesNot =>
    refine ⟨by simp [owesNot], fun p => (if_neg ?_).symm, rfl, .refl s⟩
    rintro ⟨here, owes⟩
    exact owesNot (List.mem_singleton.mp here ▸ owes)

/-- Lists of different queues are sent for one after the other. -/
theorem State.SendsOwed.append {l m : List QueueId} (first : s.SendsOwed t l) (second : t.SendsOwed u m)
    (apart : ∀ q ∈ m, q ∉ l) : s.SendsOwed u (l ++ m) := by
  have untouched (q : QueueId) (later : q ∈ m) : t.queue q = s.queue q := by
    rw [first.rows, if_neg fun ⟨sooner, _⟩ => apart q later sooner]
  refine ⟨?_, fun q => ?_, second.regs.trans first.regs, first.rest.trans second.rest⟩
  · have same : (m.filter fun q => (t.queue q).owes) = m.filter fun q => (s.queue q).owes :=
      List.filter_congr fun q later => by rw [untouched q later]
    rw [second.posted, first.posted, same, List.filter_append, List.map_append, List.append_assoc]
  · rw [second.rows]
    by_cases later : q ∈ m
    · simp [untouched q later, later]
    · simp [later, first.rows q]

theorem State.foldl_sendOwed (running : s.regs.resetting = false) (on : s.regs.irqEnable = true) (l : List QueueId)
    (distinct : l.Nodup) : s.SendsOwed (l.foldl State.sendOwed s) l := by
  induction l generalizing s with
  | nil => exact ⟨by simp, fun q => by simp, rfl, .refl s⟩
  | cons q l ih =>
    obtain ⟨apart, distinct⟩ := List.nodup_cons.mp distinct
    have first := State.sendOwed_sends running on q
    refine first.append (ih (first.regs ▸ running) (first.regs ▸ on) distinct) fun p later here => ?_
    exact apart (List.mem_singleton.mp here ▸ later)

/-- On a change from 0 to 1 every queue that owes a message sends it; any other write of IRQ_ENABLE sends nothing. -/
theorem State.writeIrqEnable_sends (running : s.regs.resetting = false) (on : Bool) :
    (s.modRegs fun r => { r with irqEnable := on }).SendsOwed (s.writeIrqEnable on)
      (if on && !s.regs.irqEnable then List.finRange 9 else []) := by
  rw [State.writeIrqEnable_eq]
  split
  · next sends =>
    obtain ⟨rfl, _⟩ := (Bool.and_eq_true ..).mp sends
    exact State.foldl_sendOwed (s := s.modRegs fun r => { r with irqEnable := true }) running rfl _ (List.nodup_finRange 9)
  · exact ⟨by simp, fun q => by simp, rfl, .refl _⟩

theorem exec_irqEnable (running : s.regs.resetting = false) (v : BitVec 32) :
    exec (.irqEnable v) s = .next (s.writeIrqEnable (v.getLsbD 2)) := by
  simp [exec, execIrqEnable, running]

end

/-- Settles O21: the messages sent are those of the queues that owe one, each of which is in the list of all nine. -/
theorem irqEnableSendsOwed : Obligations.IrqEnableSendsOwed := by
  intro v s running owes sends
  have sent := State.writeIrqEnable_sends running (v.getLsbD 2)
  refine ⟨_, exec_irqEnable running v, sent.regs, sent.posted.trans ?_, fun q => (sent.rows q).trans ?_,
    (s.onlyPosts_modRegs _).trans sent.rest⟩
  · show s.posted ++ ((if sends = true then _ else _ : List QueueId).filter owes).map _ = _
    split <;> rfl
  · show (if q ∈ (if sends = true then _ else _ : List QueueId) ∧ owes q = true then _ else _) = _
    cases sends <;> simp [State.queue, State.modRegs, QueueRow.messageSent]

/-! ### A write of ENABLE (R132, R181) -/

section
variable {s : State}

/-- A queue just started offers no record, so the Control Unit finds nothing to read. -/
theorem State.takeEnable_eq (s : State) : s.takeEnable = (s.modQueue 0 fun q => q.enabledFrom s.regs).modRegs fun r =>
    { r with enabled := true, profileTable := r.profileBase } := by
  refine if_neg ?_
  rintro ⟨_, _, offered, _⟩
  refine offered ?_
  show ((s.modQueue 0 fun q => q.enabledFrom s.regs).queue 0).subTail =
    ((s.modQueue 0 fun q => q.enabledFrom s.regs).queue 0).subHead
  rw [State.queue_modQueue_self]
  rfl

/-- Between `s` and `t` an enable has been taken, with `on` written to IRQ_ENABLE (R132, R181). -/
structure State.StartsControl (s t : State) (on : Bool) : Prop where
  regs : t.regs = { s.regs with enabled := true, irqEnable := on, profileTable := s.regs.profileBase }
  row : t.queue 0 = (s.queue 0).enabledFrom s.regs
  rest : s.OnlyPosts t

/-- A row with nothing counted and nothing due stands, whether its message is sent or not. -/
theorem State.SendsOwed.unmoved {t : State} {l : List QueueId} {q : QueueId} (sent : s.SendsOwed t l)
    (same : (s.queue q).messageSent = s.queue q) : t.queue q = s.queue q := by
  rw [sent.rows, same, ite_self]

/-- The messages of a write of IRQ_ENABLE change nothing that an enable takes or sets in queue 0's row. -/
theorem State.SendsOwed.enabledFrom {t : State} {l : List QueueId} (sent : s.SendsOwed t l) (g : Regs) :
    (t.queue 0).enabledFrom g = (s.queue 0).enabledFrom g := by
  rw [sent.rows]
  split <;> rfl

/-- Where the messages go first, the enable takes queue 0's row as they leave it (log 7). -/
theorem State.startsControl_afterMessages (running : s.regs.resetting = false) (on : Bool) :
    s.StartsControl (s.writeIrqEnable on).takeEnable on := by
  have sent := State.writeIrqEnable_sends running on
  rw [State.takeEnable_eq, sent.regs]
  refine ⟨by rw [State.modRegs_regs, State.modQueue_regs, sent.regs]; rfl, ?_,
    ((s.onlyPosts_modRegs _).trans sent.rest).trans (.trans (State.onlyPosts_modQueue ..) (State.onlyPosts_modRegs ..))⟩
  rw [State.queue_modRegs, State.queue_modQueue_self, sent.enabledFrom]
  rfl

theorem State.takeEnable_starts (s : State) : s.StartsControl s.takeEnable s.regs.irqEnable := by
  rw [State.takeEnable_eq]
  refine ⟨rfl, ?_, .trans (State.onlyPosts_modQueue ..) (State.onlyPosts_modRegs ..)⟩
  rw [State.queue_modRegs, State.queue_modQueue_self]

/-- Where the enable is taken first, queue 0's count is 0 and no message is due when the messages go (log 7). -/
theorem State.startsControl_beforeMessages (running : s.regs.resetting = false) (on : Bool) :
    s.StartsControl (s.takeEnable.writeIrqEnable on) on := by
  obtain ⟨regs, row, rest⟩ := s.takeEnable_starts
  have sent := State.writeIrqEnable_sends (s := s.takeEnable) (by rw [regs]; exact running) on
  refine ⟨by rw [sent.regs, State.modRegs_regs, regs], ?_, rest.trans ((State.onlyPosts_modRegs _ _).trans sent.rest)⟩
  rw [sent.unmoved (by rw [State.queue_modRegs, row]; rfl), State.queue_modRegs, row]

/-- An enable that is taken, in either order with the messages that the same write sends. -/
theorem exec_enable_taken (running : s.regs.resetting = false) (disabled : s.regs.enabled = false)
    (fits : s.regs.ringsOk = true) (v : BitVec 32) :
    ∃ t, exec (.enable v) s = .next t ∧ s.StartsControl t (v.getLsbD 2) := by
  simp only [exec, execEnable, running, disabled, fits, Bool.not_true, Bool.or_self, Bool.false_eq_true, if_false]
  split
  · exact ⟨_, rfl, State.startsControl_afterMessages running _⟩
  · exact ⟨_, rfl, State.startsControl_beforeMessages running _⟩

theorem codeOk_iff (c : Nat) : codeOk c = true ↔ 4 ≤ c ∧ c ≤ 12 := decide_eq_true_iff

end

/-- Settles O20: an enable taken by what it starts, in either order with the messages; one ignored is the other command. -/
theorem enableTakenOrIgnored : Obligations.EnableTakenOrIgnored := by
  unfold Obligations.EnableTakenOrIgnored
  extract_lets codeFits
  have ringsOk (r : Regs) : r.ringsOk = true ↔ codeFits r.ctlqRing ∧ codeFits r.ctlqCpl := by
    rw [Regs.ringsOk, Bool.and_eq_true, codeOk_iff, codeOk_iff]
    rfl
  refine ⟨?taken, ?ignored⟩
  case taken =>
    intro v s running disabled ring cpl
    have fits : s.regs.ringsOk = true := (ringsOk s.regs).mpr ⟨ring, cpl⟩
    obtain ⟨t, next, regs, row, rest⟩ := exec_enable_taken running disabled fits v
    refine ⟨t, next, regs, row, ?_⟩
    rw [State.OnlyPosts] at rest
    rw [rest]
    exact ⟨rfl, rfl, rfl, rfl, rfl, rfl, rfl, rfl, rfl, rfl, rfl, rfl⟩
  case ignored =>
    refine fun v s => ⟨fun resetting => ?_, fun running ignored => ?_⟩
    · simp [exec, execEnable, execIrqEnable, resetting]
    · have unfit : (s.regs.enabled || !s.regs.ringsOk) = true := by
        cases fits : s.regs.ringsOk with
        | false => exact Bool.or_true _
        | true =>
          obtain ⟨ring, cpl⟩ := (ringsOk _).mp fits
          rcases ignored with enabled | misfit | misfit
          · rw [enabled, Bool.true_or]
          · exact absurd ring misfit
          · exact absurd cpl misfit
      rw [exec_irqEnable running]
      simp [exec, execEnable, running, unfit]

end Sys2Proof.Machine
end

section
/-! PROOFS. INDEX_PORT writes (R136 to R138): the checks in their order, the index error latch, a completion head that passes
(R137, R140), and the Control Unit's test (R164). -/

namespace Sys2Proof.Machine

/-! ### The checks (R136) -/

theorem queueNamed_of_eq {f : BitVec 4} {q : QueueId} (named : f.toNat = q.val) : queueNamed f = some q := by
  rw [queueNamed, named, if_pos (Nat.le_of_lt_succ q.isLt)]
  exact congrArg some (Fin.ofNat_val_eq_self q)

theorem queueNamed_of_above {f : BitVec 4} (above : 8 < f.toNat) : queueNamed f = none := if_neg (Nat.not_le.mpr above)

section
variable {s : State} {f : BitVec 4} {v : BitVec 16} {q : QueueId} {inRange : QueueRow → Bool} {kind : IndexErrorKind}

theorem State.indexCheck_badQueue (above : 8 < f.toNat) : s.indexCheck f inRange kind = .error .badQueue := by
  rw [State.indexCheck, queueNamed_of_above above]

theorem State.indexCheck_disabled (named : f.toNat = q.val) (disabled : (s.queue q).state = .disabled) :
    s.indexCheck f inRange kind = .error .queueState := by
  simp [State.indexCheck, queueNamed_of_eq named, disabled]

/-- Check 3 decides for a queue that is not DISABLED. -/
theorem State.indexCheck_enabled (named : f.toNat = q.val) (on : (s.queue q).state ≠ .disabled) :
    s.indexCheck f inRange kind = if inRange (s.queue q) then .ok q else .error kind := by
  simp [State.indexCheck, queueNamed_of_eq named, on]

theorem exec_subTail_resetting (resetting : s.regs.resetting = true) : exec (.subTail f v) s = .next s :=
  if_pos resetting

theorem exec_cplHead_resetting (resetting : s.regs.resetting = true) : exec (.cplHead f v) s = .next s :=
  if_pos resetting

variable (running : s.regs.resetting = false)
include running

theorem exec_subTail_fails (fails : s.indexCheck f (fun r => decide (v.toNat < r.subSize)) .tailRange = .error kind) :
    exec (.subTail f v) s = .next (s.indexErrorSeen kind f) := by
  simp [exec, execSubTail, running, fails]

theorem exec_cplHead_fails (fails : s.indexCheck f (fun r => r.headOk v.toNat) .headRange = .error kind) :
    exec (.cplHead f v) s = .next (s.indexErrorSeen kind f) := by
  simp [exec, execCplHead, running, fails]

theorem exec_subTail_passes (passes : s.indexCheck f (fun r => decide (v.toNat < r.subSize)) .tailRange = .ok q) :
    exec (.subTail f v) s = .next ((s.modQueue q fun r => { r with subTail := v.toNat }).tailTaken q) := by
  simp [exec, execSubTail, running, passes]

theorem exec_cplHead_passes (passes : s.indexCheck f (fun r => r.headOk v.toNat) .headRange = .ok q) :
    exec (.cplHead f v) s =
      let t := s.modQueue q fun r => { r with cplHead := v.toNat }
      .next (if 0 < (s.queue q).freedBy v.toNat ∧ (s.queue q).refused = true then t.roomMade q else t) := by
  simp only [exec, execCplHead, running, passes]
  exact (apply_ite Host.Outcome.next _ _ _).symm

/-! ### The index error latch (R138, R146) -/

theorem State.oweNotice_sends (on : s.regs.irqEnable = true) :
    s.oweNotice = (s.handWrite (.message 0)).modQueue 0 fun r => { r with messageDue := false } := by
  simp [State.oweNotice, running, on]

theorem State.oweNotice_waits (off : s.regs.irqEnable = false) :
    s.oweNotice = s.modQueue 0 fun r => { r with messageDue := true } := by
  simp [State.oweNotice, running, off]

/-- A notice is a message on vector 0, or message due on queue 0 while IRQ_ENABLE is clear (R146). -/
theorem State.oweNotice_posts :
    let t := s.oweNotice
    t.queue 0 = { s.queue 0 with messageDue := !s.regs.irqEnable } ∧ (∀ q, q ≠ 0 → t.queue q = s.queue q)
      ∧ t.posted = s.posted ++ (if s.regs.irqEnable then [PostedWrite.message 0] else [])
      ∧ t.regs = s.regs ∧ s.OnlyPosts t := by
  cases irq : s.regs.irqEnable with
  | true =>
    rw [State.oweNotice_sends running irq]
    exact ⟨State.queue_modQueue_self .., fun q other => State.queue_modQueue_ne _ _ other, posted_handWrite .., rfl,
      (s.onlyPosts_handWrite _).trans (State.onlyPosts_modQueue ..)⟩
  | false =>
    rw [State.oweNotice_waits running irq]
    exact ⟨State.queue_modQueue_self .., fun q other => State.queue_modQueue_ne _ _ other, (List.append_nil _).symm, rfl,
      State.onlyPosts_modQueue ..⟩

end

/-- Settles O25: the checks by the answer of each, the latch by what a notice does, and the clearing write by its bit. -/
theorem indexErrorsCheckedAndLatched : Obligations.IndexErrorsCheckedAndLatched := by
  refine ⟨fun f v s => ⟨?resetting, ?badQueue, ?disabled, ?tail⟩, fun k f s running => ⟨?kept, ?latched⟩, ?cleared⟩
  case resetting => exact fun resetting => ⟨exec_subTail_resetting resetting, exec_cplHead_resetting resetting⟩
  case badQueue =>
    exact fun running above => ⟨exec_subTail_fails running (State.indexCheck_badQueue above),
      exec_cplHead_fails running (State.indexCheck_badQueue above)⟩
  case disabled =>
    exact fun q running named disabled => ⟨exec_subTail_fails running (State.indexCheck_disabled named disabled),
      exec_cplHead_fails running (State.indexCheck_disabled named disabled)⟩
  case tail =>
    intro q running named on above
    refine exec_subTail_fails running ?_
    rw [State.indexCheck_enabled named on, if_neg (by simpa using above)]
  case kept => exact fun latched => if_pos (Option.isSome_iff_ne_none.mpr latched)
  case latched =>
    intro clear t
    have seen : t = (s.modRegs fun r => { r with indexError := some (k, f) }).oweNotice := by
      show s.indexErrorSeen k f = _
      rw [State.indexErrorSeen, clear]
      rfl
    obtain ⟨row, others, posted, regs, rest⟩ :=
      State.oweNotice_posts (s := s.modRegs fun r => { r with indexError := some (k, f) }) running
    rw [← seen] at row others posted regs rest
    exact ⟨regs, row, others, posted, (s.onlyPosts_modRegs _).trans rest⟩
  case cleared => exact fun v s => (apply_ite Host.Outcome.next _ _ _).symm

/-! ### The Control Unit's test (R164) -/

section
variable {s : State}

/-- What the Control Unit's test asks: IDLE, queue 0 ACTIVE with a record offered, and RESETTING clear (R164). -/
def State.ControlBegins (s : State) : Prop :=
  s.control.state = .idle ∧ (s.queue 0).state = .active ∧ (s.queue 0).subTail ≠ (s.queue 0).subHead
    ∧ s.regs.resetting = false

theorem State.controlTest_stays (stays : ¬ s.ControlBegins) : s.controlTest = s := by
  rw [State.ControlBegins, ← Bool.not_eq_true'] at stays
  exact if_neg stays

section
variable (begins : s.ControlBegins)
include begins

theorem State.controlTest_refused (full : ¬ (s.queue 0).written + (s.queue 0).reserved < (s.queue 0).cplSize - 1) :
    s.controlTest = (s.refuse 0).modControl fun k => { k with state := .reserving } := by
  rw [State.ControlBegins, ← Bool.not_eq_true'] at begins
  unfold State.controlTest
  rw [if_pos begins, if_neg (mt (QueueRow.hasRoom_iff _).mp full)]

theorem State.controlTest_granted (room : (s.queue 0).written + (s.queue 0).reserved < (s.queue 0).cplSize - 1) :
    s.controlTest = ((s.modQueue 0 fun x => { x with reserved := (s.queue 0).reserved + 1, refused := false }).modControl
      fun k => { k with state := .reading }).modPort fun h => { h with controlReads := h.controlReads
        ++ [{ ref := .control, addr := (s.queue 0).subBase + BitVec.ofNat 64 (64 * (s.queue 0).subHead), len := 64 }] } := by
  rw [State.ControlBegins, ← Bool.not_eq_true'] at begins
  unfold State.controlTest
  rw [if_pos begins, if_pos ((QueueRow.hasRoom_iff _).mpr room)]
  rfl

end

end

/-! ### A completion head that passes (R137, R140) -/

theorem QueueRow.headOk_iff (r : QueueRow) (head : Nat) :
    r.headOk head = true ↔ head < r.cplSize ∧ (head + r.cplSize - r.cplHead) % r.cplSize ≤ r.written := decide_eq_true_iff

/-- Settles O24: the write by check 3, the asking again by whose reservation it was, the test by its three outcomes. -/
theorem cplHeadFreesEntries : Obligations.CplHeadFreesEntries := by
  refine ⟨?write, fun s q => ⟨?fetcher, ?reserving, ?other⟩, fun s => ⟨?stays, ?refused, ?granted⟩⟩
  case write =>
    intro f v s q named running on ⟨_, _, indices⟩ r freed t
    obtain ⟨_, _, head, tail⟩ := indices on
    refine ⟨fun passes => ?_, fun fails => ?_⟩
    · have headOk : r.headOk v.toNat = true := (r.headOk_iff _).mpr passes
      refine ⟨exec_cplHead_passes running ?_, ?_⟩
      · rw [State.indexCheck_enabled named on, if_pos headOk]
      · rw [State.queue_modQueue_self]
        exact QueueRow.written_headOk head tail headOk
    · refine exec_cplHead_fails running ?_
      rw [State.indexCheck_enabled named on, if_neg (mt (r.headOk_iff _).mp fails)]
  case fetcher => exact fun other => if_neg other
  case reserving =>
    intro zero reserving
    rw [State.roomMade, if_pos zero, if_pos reserving]
  case other =>
    intro zero other
    rw [State.roomMade, if_pos zero, if_neg other]
  case stays => exact State.controlTest_stays
  case refused => exact State.controlTest_refused
  case granted => exact State.controlTest_granted

end Sys2Proof.Machine
end

section
/-! PROOFS. A submission tail that passes (R136), and the Record Fetcher's evaluation that follows it (R2, R3, R139, R150 to
R152): the order of its visits, the three outcomes of a visit, and what an evaluation leaves alone. -/

namespace Sys2Proof.Machine

/-! ### What asking for a record leaves alone -/

/-- Between `s` and `t` nothing has changed but contexts, queue rows, fetches, the sequence counter, the Control Unit, and the
reads that the Record Fetcher and the Control Unit have listed. -/
def State.OnlyLists (s t : State) : Prop :=
  t = { s with
    contexts := t.contexts, queues := t.queues, fetcher := t.fetcher, seqCounter := t.seqCounter, control := t.control
    port := { s.port with fetcherReads := t.port.fetcherReads, controlReads := t.port.controlReads } }

theorem State.OnlyLists.trans {s t u : State} (first : s.OnlyLists t) (second : t.OnlyLists u) : s.OnlyLists u := by
  rw [State.OnlyLists] at first
  rw [first] at second
  exact second

/-- Between `s` and `t` the Record Fetcher and the Control Unit have at most asked for records: reservations and their
refusals, contexts taken, fetches and their reads listed; and no row that is not ACTIVE has changed. -/
structure State.OnlyAsks (s t : State) : Prop where
  rest : s.OnlyLists t
  row : ∀ q, t.queue q = { s.queue q with
    reserved := (t.queue q).reserved, refused := (t.queue q).refused, outstanding := (t.queue q).outstanding }
  inactive : ∀ q, (s.queue q).state ≠ .active → t.queue q = s.queue q

section
variable {s t u : State} {q : QueueId}

theorem State.OnlyAsks.refl (s : State) : s.OnlyAsks s := ⟨rfl, fun _ => rfl, fun _ _ => rfl⟩

theorem State.OnlyAsks.trans (first : s.OnlyAsks t) (second : t.OnlyAsks u) : s.OnlyAsks u where
  rest := first.rest.trans second.rest
  row q := by
    have later := second.row q
    rw [first.row q] at later
    exact later
  inactive q off := by
    have same := first.inactive q off
    rw [second.inactive q (same ▸ off), same]

theorem State.OnlyAsks.of_queues (same : t.queues = s.queues) (rest : s.OnlyLists t) : s.OnlyAsks t :=
  have row (q : QueueId) : t.queue q = s.queue q := congrArg (·[q]) same
  ⟨rest, fun q => by rw [row], fun q _ => row q⟩

theorem State.OnlyAsks.frame (asks : s.OnlyAsks t) :
    t.regs = s.regs ∧ t.bus = s.bus ∧ t.targets = s.targets ∧ t.locks = s.locks ∧ t.pool = s.pool ∧ t.cache = s.cache
      ∧ t.clock = s.clock ∧ t.posted = s.posted ∧ t.port.tags = s.port.tags ∧ t.pending = s.pending := by
  have rest := asks.rest
  rw [State.OnlyLists] at rest
  rw [rest]
  exact ⟨rfl, rfl, rfl, rfl, rfl, rfl, rfl, rfl, rfl, rfl⟩

/-- An ACTIVE row takes other reservations, refusals or outstanding counts. -/
theorem State.OnlyAsks.modQueue {f : QueueRow → QueueRow} (active : (s.queue q).state = .active)
    (row : f (s.queue q) = { s.queue q with reserved := (f (s.queue q)).reserved, refused := (f (s.queue q)).refused
                                            outstanding := (f (s.queue q)).outstanding }) :
    s.OnlyAsks (s.modQueue q f) := by
  refine ⟨rfl, fun p => ?_, fun p off => State.queue_modQueue_ne _ _ fun same => off (same ▸ active)⟩
  by_cases same : p = q
  · subst same
    rw [State.queue_modQueue_self]
    exact row
  · rw [State.queue_modQueue_ne _ _ same]

theorem State.reserve_onlyAsks (active : (s.queue q).state = .active) : s.OnlyAsks (s.reserve q) := .modQueue active rfl

theorem State.refuse_onlyAsks (active : (s.queue q).state = .active) : s.OnlyAsks (s.refuse q) := .modQueue active rfl

theorem State.startFetch_onlyAsks (active : (s.queue q).state = .active) (c : CtxId) : s.OnlyAsks (s.startFetch q c) := by
  have still : ((s.reserve q).queue q).state = .active := by rw [State.reserve, State.queue_modQueue_self, active]
  have counted : s.OnlyAsks ((s.reserve q).modQueue q fun r => { r with outstanding := r.outstanding + 1 }) :=
    (State.reserve_onlyAsks active).trans (.modQueue still rfl)
  exact counted.trans (.of_queues rfl rfl)

theorem State.controlTest_onlyAsks (s : State) : s.OnlyAsks s.controlTest := by
  by_cases begins : s.ControlBegins
  · have ⟨_, active, _⟩ := begins
    by_cases room : (s.queue 0).written + (s.queue 0).reserved < (s.queue 0).cplSize - 1
    · rw [State.controlTest_granted begins room]
      exact (State.reserve_onlyAsks active).trans (.of_queues rfl rfl)
    · rw [State.controlTest_refused begins room]
      exact (State.refuse_onlyAsks active).trans (.of_queues rfl rfl)
  · rw [State.controlTest_stays begins]
    exact .refl s

/-! ### The order of the visits (R151) -/

theorem rotation_eq {pointer : Nat} (within : pointer ≤ 8) :
    rotation pointer = List.range' (pointer + 1) (8 - pointer) ++ List.range' 1 pointer := by
  have each : ∀ p, p < 9 → rotation p = List.range' (p + 1) (8 - p) ++ List.range' 1 p := by decide
  exact each pointer (Nat.lt_succ_of_le within)

/-! ### The visit of a queue (R150, R151) -/

/-- What a visit asks of a queue and of the sequence counter before it takes a context (R2, R150). -/
def State.ReadyToFetch (s : State) (q : QueueId) : Prop :=
  (s.queue q).state = .active ∧ (s.queue q).subTail ≠ (s.queue q).subHead ∧ (s.queue q).outstanding < (s.queue q).limit
    ∧ s.fetchOf q = none ∧ ∀ c, (s.ctx c).state = .free ∨ (s.seqCounter - (s.ctx c).seq).toNat < 2 ^ 31 - 1

theorem State.readyToFetch_iff (s : State) (q : QueueId) :
    (s.fetchReady q && s.mayAllocate) = true ↔ s.ReadyToFetch q := by
  simp [State.fetchReady, State.mayAllocate, State.ReadyToFetch, and_assoc]

theorem State.freeContext?_eq_some {c : CtxId} (free : (s.ctx c).state = .free)
    (lowest : ∀ d, d < c → (s.ctx d).state ≠ .free) : s.freeContext? = some c := by
  unfold State.freeContext?
  rw [List.find?_eq_some_iff_getElem]
  refine ⟨by simp [free], c.val, by simp, by simp, fun j below => ?_⟩
  simpa using lowest ⟨j, by omega⟩ below

theorem State.freeContext?_eq_none (none_free : ∀ c, (s.ctx c).state ≠ .free) : s.freeContext? = none := by
  unfold State.freeContext?
  simpa using none_free

theorem State.visitQueue_stays (stays : ¬ s.ReadyToFetch q ∨ ∀ c, (s.ctx c).state ≠ .free) : s.visitQueue q = s := by
  unfold State.visitQueue
  rcases stays with unready | none_free
  · rw [if_neg (mt (s.readyToFetch_iff q).mp unready)]
  · rw [State.freeContext?_eq_none none_free]
    exact ite_self s

section
variable {c : CtxId} (ready : s.ReadyToFetch q) (found : s.freeContext? = some c)
include ready found

theorem State.visitQueue_refused (full : ¬ (s.queue q).hasRoom = true) : s.visitQueue q = s.refuse q := by
  unfold State.visitQueue
  rw [if_pos ((s.readyToFetch_iff q).mpr ready), found]
  exact if_neg full

theorem State.visitQueue_starts (room : (s.queue q).hasRoom = true) : s.visitQueue q = s.startFetch q c := by
  unfold State.visitQueue
  rw [if_pos ((s.readyToFetch_iff q).mpr ready), found]
  exact if_pos room

end

theorem State.visitQueue_onlyAsks (s : State) (q : QueueId) : s.OnlyAsks (s.visitQueue q) := by
  unfold State.visitQueue
  split
  · next asks =>
    obtain ⟨active, _⟩ := (s.readyToFetch_iff q).mp asks
    split
    · exact .refl s
    · split
      · exact State.startFetch_onlyAsks active _
      · exact State.refuse_onlyAsks active
  · exact .refl s

theorem State.fetchEvaluate_onlyAsks (s : State) : s.OnlyAsks s.fetchEvaluate := by
  unfold State.fetchEvaluate
  split
  · exact .refl s
  · exact List.foldlRecOn (motive := s.OnlyAsks) _ _ (.refl s) fun u asks q _ => asks.trans (u.visitQueue_onlyAsks _)

/-! ### A fetch starts (R3, R151, R152) -/

theorem State.fetchOf_setFetch_self (s : State) (q : QueueId) (f : Option FetchRecord) : (s.setFetch q f).fetchOf q = f := by
  simp [State.fetchOf]

/-- Each of the queues 1 to 8 has a fetch record of its own (R149). -/
theorem State.fetchOf_setFetch_ne (s : State) {p q : QueueId} (f : Option FetchRecord) (hp : p ≠ 0) (hq : q ≠ 0)
    (other : p ≠ q) : (s.setFetch q f).fetchOf p = s.fetchOf p := by
  have apart : (fetchIndex q).val ≠ (fetchIndex p).val := by
    have numbers : p.val ≠ 0 ∧ q.val ≠ 0 ∧ p.val ≠ q.val :=
      ⟨Fin.val_ne_of_ne hp, Fin.val_ne_of_ne hq, Fin.val_ne_of_ne other⟩
    simp only [fetchIndex, Fin.ofNat]
    omega
  simp [State.fetchOf, Vector.getElem_set_ne, apart]

/-- A fetch started changes one context, one row, one fetch record and the counters, and lists the header slot's read. -/
theorem State.startFetch_changes (s : State) {q : QueueId} (c : CtxId) (hq : q ≠ 0) :
    let r := s.queue q
    let t := s.startFetch q c
    t.ctx c = { s.ctx c with state := .loading, queue := some q, seq := s.seqCounter }
      ∧ (∀ d, d ≠ c → t.ctx d = s.ctx d)
      ∧ t.queue q = { r with reserved := r.reserved + 1, refused := false, outstanding := r.outstanding + 1 }
      ∧ (∀ p, p ≠ q → t.queue p = s.queue p)
      ∧ t.fetchOf q = some { context := c, firstSlot := r.subHead }
      ∧ (∀ p, p ≠ 0 → p ≠ q → t.fetchOf p = s.fetchOf p) := by
  intro r t
  have contexts (d : CtxId) : t.ctx d =
      (s.modCtx c fun x => { x with state := .loading, queue := some q, seq := s.seqCounter }).ctx d := rfl
  have rows (p : QueueId) : t.queue p =
      ((s.reserve q).modQueue q fun r => { r with outstanding := r.outstanding + 1 }).queue p := rfl
  have fetches (p : QueueId) : t.fetchOf p = (s.setFetch q (some { context := c, firstSlot := r.subHead })).fetchOf p := rfl
  refine ⟨?_, fun d other => ?_, ?_, fun p other => ?_, ?_, fun p hp other => ?_⟩
  · rw [contexts, State.ctx_modCtx_self]
  · rw [contexts, State.ctx_modCtx_ne _ _ other]
  · rw [rows, State.queue_modQueue_self, State.reserve, State.queue_modQueue_self]
  · rw [rows, State.queue_modQueue_ne _ _ other, State.reserve, State.queue_modQueue_ne _ _ other]
  · rw [fetches, State.fetchOf_setFetch_self]
  · rw [fetches, State.fetchOf_setFetch_ne s _ hp hq other]

/-! ### A submission tail (R136) -/

theorem State.tailTaken_fetcher (other : q ≠ 0) : s.tailTaken q = s.fetchEvaluate := if_neg other

theorem State.tailTaken_control (zero : q = 0) (able : s.control.state ≠ .readFailed) :
    s.tailTaken q = s.controlTest := by
  rw [State.tailTaken, if_pos zero, if_neg able]

theorem State.tailTaken_readFailed (zero : q = 0) (failed : s.control.state = .readFailed) :
    s.tailTaken q = (s.modControl fun k => { k with state := .idle }).controlTest := by
  rw [State.tailTaken, if_pos zero, if_pos failed]

theorem State.tailTaken_onlyAsks (s : State) (q : QueueId) : s.OnlyAsks (s.tailTaken q) := by
  unfold State.tailTaken
  split
  · split
    · have idle : s.OnlyAsks (s.modControl fun k => { k with state := .idle }) := .of_queues rfl rfl
      exact idle.trans (State.controlTest_onlyAsks _)
    · exact s.controlTest_onlyAsks
  · exact s.fetchEvaluate_onlyAsks

end

/-- Settles O23: the write by check 3 and by what asking leaves alone; the visits by their order and their three outcomes. -/
theorem subTailReplacesTail : Obligations.SubTailReplacesTail := by
  refine ⟨?write, fun s running within => ?order, fun s q hq => ?visit⟩
  case write =>
    intro f v s q named running on below
    let u := s.modQueue q fun r => { r with subTail := v.toNat }
    have passes : s.indexCheck f (fun r => decide (v.toNat < r.subSize)) .tailRange = .ok q := by
      rw [State.indexCheck_enabled named on, if_pos (decide_eq_true below)]
    have self : u.queue q = { s.queue q with subTail := v.toNat } := State.queue_modQueue_self ..
    have others (p : QueueId) (other : p ≠ q) : u.queue p = s.queue p := State.queue_modQueue_ne _ _ other
    have asks := u.tailTaken_onlyAsks q
    refine ⟨u.tailTaken q, exec_subTail_passes running passes, ?tail, ⟨State.tailTaken_fetcher (s := u),
      State.tailTaken_control (s := u), State.tailTaken_readFailed (s := u)⟩, fun p other => ?otherTail,
      fun p => ?kept, fun off => ?off, asks.frame⟩
    case tail => rw [asks.row, self]
    case otherTail => rw [asks.row, others p other]
    case kept =>
      rw [asks.row]
      by_cases same : p = q
      · subst same
        rw [self]
        exact ⟨rfl, rfl, rfl, rfl⟩
      · rw [others p same]
        exact ⟨rfl, rfl, rfl, rfl⟩
    case off => rw [asks.inactive q (by rwa [self]), self]
  case order =>
    unfold State.fetchEvaluate
    rw [if_neg (ne_true_of_eq_false running), rotation_eq within]
  case visit =>
    intro r ready room
    refine ⟨State.visitQueue_stays, fun c isReady free lowest => ?_⟩
    have found := State.freeContext?_eq_some free lowest
    refine ⟨fun full => ?_, fun fits => ?_⟩
    · rw [State.visitQueue_refused isReady found (mt r.hasRoom_iff.mp full), State.refuse]
    · rw [State.visitQueue_starts isReady found (r.hasRoom_iff.mpr fits)]
      obtain ⟨ctx, others, row, rows, fetch, fetches⟩ := s.startFetch_changes c hq
      exact ⟨ctx, others, row, rows, fetch, fetches, rfl, rfl, rfl, rfl⟩

end Sys2Proof.Machine
end

section
/-! PROOFS. The base registers (R180, R184): what a write of a register or of one half of it stores, and what reads back. -/

namespace Sys2Proof.Machine

/-! ### The halves of a register -/

section
variable {o : BitVec 8} (old v : BitVec 64)

theorem and_mask_comm (x fields mask : BitVec 64) : x &&& fields &&& mask = x &&& mask &&& fields := by ac_rfl

theorem shiftLeft_and_low : v <<< 32 &&& 0xFFFFFFFF = 0#64 := by
  ext i hi
  by_cases low : i < 32
  · simp [low]
  · have above : (0xFFFFFFFF : Nat).testBit i = false :=
      Nat.testBit_lt_two_pow (Nat.lt_of_lt_of_le (by decide : _ < 2 ^ 32) (Nat.pow_le_pow_right (by decide) (by omega)))
    simp [BitVec.getElem_eq_testBit_toNat, above]

theorem shiftRight_shiftLeft {v : BitVec 64} (half : v.toNat < 2 ^ 32) : v <<< 32 >>> 32 = v := by
  apply BitVec.eq_of_toNat_eq
  simp only [BitVec.toNat_ushiftRight, BitVec.toNat_shiftLeft, Nat.shiftLeft_eq, Nat.shiftRight_eq_div_pow]
  omega

theorem and_high_shiftRight : (old &&& 0xFFFFFFFF00000000) >>> 32 = old >>> 32 := by
  rw [BitVec.ushiftRight_and_distrib]
  apply BitVec.eq_of_toNat_eq
  have low : ((0xFFFFFFFF00000000 : BitVec 64) >>> 32).toNat = 2 ^ 32 - 1 := by decide
  rw [BitVec.toNat_and, low, Nat.and_two_pow_sub_one_eq_mod, BitVec.toNat_ushiftRight, Nat.shiftRight_eq_div_pow]
  omega

theorem and_low_shiftRight : (old &&& 0xFFFFFFFF) >>> 32 = 0#64 := by
  rw [BitVec.ushiftRight_and_distrib, show (0xFFFFFFFF : BitVec 64) >>> 32 = 0#64 by decide, BitVec.and_zero]

theorem mergeWrite_lower (lower : o.toNat % 8 = 0) :
    mergeWrite old o .half v = old &&& 0xFFFFFFFF00000000 ||| v &&& 0xFFFFFFFF := if_pos lower

theorem mergeWrite_upper (upper : o.toNat % 8 ≠ 0) :
    mergeWrite old o .half v = old &&& (0xFFFFFFFF : BitVec 64) ||| v <<< 32 := if_neg upper

/-! A write of the lower half takes the lower half of the value and keeps the upper half of the register; a write of the
upper half the other way round (R180). -/

theorem mergeWrite_lower_and_low (lower : o.toNat % 8 = 0) :
    mergeWrite old o .half v &&& 0xFFFFFFFF = v &&& 0xFFFFFFFF := by
  rw [mergeWrite_lower old v lower, BitVec.and_or_distrib_right, BitVec.and_assoc, BitVec.and_assoc, BitVec.and_self,
    show (0xFFFFFFFF00000000 : BitVec 64) &&& 0xFFFFFFFF = 0#64 by decide, BitVec.and_zero, BitVec.zero_or]

theorem mergeWrite_lower_shiftRight (lower : o.toNat % 8 = 0) : mergeWrite old o .half v >>> 32 = old >>> 32 := by
  rw [mergeWrite_lower old v lower, BitVec.ushiftRight_or_distrib, and_high_shiftRight, and_low_shiftRight,
    BitVec.or_zero]

theorem mergeWrite_upper_and_low (upper : o.toNat % 8 ≠ 0) :
    mergeWrite old o .half v &&& 0xFFFFFFFF = old &&& 0xFFFFFFFF := by
  rw [mergeWrite_upper old v upper, BitVec.and_or_distrib_right, shiftLeft_and_low, BitVec.or_zero, BitVec.and_assoc,
    BitVec.and_self]

theorem mergeWrite_upper_shiftRight {v : BitVec 64} (upper : o.toNat % 8 ≠ 0) (half : v.toNat < 2 ^ 32) :
    mergeWrite old o .half v >>> 32 = v := by
  rw [mergeWrite_upper old v upper, BitVec.ushiftRight_or_distrib, and_low_shiftRight, shiftRight_shiftLeft half,
    BitVec.zero_or]

end

/-! ### A write to the window (R184) -/

/-- The bits of a base register that hold fields, by the register's offset (R184). -/
def fieldsOf (base : Nat) : BitVec 64 := if base = 0x28 then baseFields else ringFields

/-- The offset is that of a base register. -/
def IsBase (base : Nat) : Prop := base = 0x18 ∨ base = 0x20 ∨ base = 0x28

section
variable (r : Regs) (o : BitVec 8) (w : Width) (v : BitVec 64)

theorem writeBase_frame : r.writeBase o w v = { r with
    ctlqRing := (r.writeBase o w v).ctlqRing, ctlqCpl := (r.writeBase o w v).ctlqCpl
    profileBase := (r.writeBase o w v).profileBase } := by
  unfold Regs.writeBase
  split <;> rfl

variable {o}

theorem writeBase_ignored (other : ¬ IsBase (o.toNat / 8 * 8)) : r.writeBase o w v = r := by
  unfold Regs.writeBase
  split
  · next at18 => exact absurd (.inl at18) other
  · next at20 => exact absurd (.inr (.inl at20)) other
  · next at28 => exact absurd (.inr (.inr at28)) other
  · rfl

/-- The register written takes the value merged with it, its reserved bits 0. -/
theorem registerWord_writeBase (base : IsBase (o.toNat / 8 * 8)) :
    registerWord (r.writeBase o w v) (o.toNat / 8 * 8) =
      mergeWrite (registerWord r (o.toNat / 8 * 8)) o w v &&& fieldsOf (o.toNat / 8 * 8) := by
  unfold Regs.writeBase
  rcases base with at_ | at_ | at_
  all_goals
    rw [at_]
    rfl

/-- Every other register reads as before. -/
theorem registerWord_writeBase_ne {n : Nat} (other : n ≠ o.toNat / 8 * 8) :
    registerWord (r.writeBase o w v) n = registerWord r n := by
  by_cases base : IsBase (o.toNat / 8 * 8)
  · unfold Regs.writeBase
    rcases base with at_ | at_ | at_
    all_goals
      rw [at_] at other ⊢
      unfold registerWord
      split <;> try contradiction
      all_goals rfl
  · rw [writeBase_ignored r w v base]

theorem readRegister_writeBase_ne {p : BitVec 8} (x : Width) (other : p.toNat / 8 ≠ o.toNat / 8) :
    readRegister (r.writeBase o w v) p x = readRegister r p x := by
  unfold readRegister
  rw [registerWord_writeBase_ne r w v (by omega)]

end

/-- The other half of a register is in the same register, and is the upper half just when this one is the lower. -/
theorem otherHalf {o : BitVec 8} (aligned : o.toNat % 4 = 0) :
    (o ^^^ 4).toNat / 8 = o.toNat / 8 ∧ ((o ^^^ 4).toNat % 8 = 0 ↔ o.toNat % 8 ≠ 0) := by
  have register : (o ^^^ 4).toNat / 8 = o.toNat / 8 ^^^ 0 := Nat.xor_div_two_pow (n := 3)
  have place : (o ^^^ 4).toNat % 8 = o.toNat % 8 ^^^ 4 := Nat.xor_mod_two_pow (n := 3)
  refine ⟨register.trans (Nat.xor_zero _), ?_⟩
  rw [place]
  have halves : o.toNat % 8 = 0 ∨ o.toNat % 8 = 4 := by omega
  rcases halves with lower | upper
  · simp [lower]
  · simp [upper]

/-- The reserved bits of a base register are 0 when those of all three are. -/
theorem State.BasesAligned.registerWord {s : State} (aligned : s.BasesAligned) {base : Nat} (isBase : IsBase base) :
    Machine.registerWord s.regs base &&& fieldsOf base = Machine.registerWord s.regs base := by
  obtain ⟨ring, cpl, profile⟩ := aligned
  rcases isBase with rfl | rfl | rfl
  · exact ring
  · exact cpl
  · exact profile

/-! ### What reads back -/

section
variable {r : Regs} {o : BitVec 8} {v : BitVec 64} (base : IsBase (o.toNat / 8 * 8))
include base

theorem readRegister_writeBase_full :
    readRegister (r.writeBase o .full v) o .full = v &&& fieldsOf (o.toNat / 8 * 8) :=
  registerWord_writeBase r .full v base

theorem readRegister_writeBase_half (half : v.toNat < 2 ^ 32) :
    readRegister (r.writeBase o .half v) o .half = v &&& (if o.toNat % 8 = 0 then
      fieldsOf (o.toNat / 8 * 8) &&& 0xFFFFFFFF else fieldsOf (o.toNat / 8 * 8) >>> 32) := by
  simp only [readRegister, registerWord_writeBase r .half v base]
  split
  · next lower => rw [and_mask_comm, mergeWrite_lower_and_low _ _ lower, BitVec.and_assoc, BitVec.and_comm 0xFFFFFFFF]
  · next upper => rw [BitVec.ushiftRight_and_distrib, mergeWrite_upper_shiftRight _ upper half]

/-- The half that is not written keeps its value, for the register's reserved bits were 0. -/
theorem readRegister_writeBase_otherHalf (aligned : o.toNat % 4 = 0)
    (fields : registerWord r (o.toNat / 8 * 8) &&& fieldsOf (o.toNat / 8 * 8) = registerWord r (o.toNat / 8 * 8)) :
    readRegister (r.writeBase o .half v) (o ^^^ 4) .half = readRegister r (o ^^^ 4) .half := by
  obtain ⟨register, place⟩ := otherHalf aligned
  simp only [readRegister, register, registerWord_writeBase r .half v base]
  by_cases lower : o.toNat % 8 = 0
  · rw [if_neg fun low => place.mp low lower, if_neg fun low => place.mp low lower, BitVec.ushiftRight_and_distrib,
      mergeWrite_lower_shiftRight _ _ lower, ← BitVec.ushiftRight_and_distrib, fields]
  · rw [if_pos (place.mpr lower), if_pos (place.mpr lower), and_mask_comm, mergeWrite_upper_and_low _ _ lower,
      and_mask_comm, fields]

end

theorem registerWriteOk_half {o : BitVec 8} {v : BitVec 64} (ok : registerWriteOk o .half v = true) :
    o.toNat % 4 = 0 ∧ v.toNat < 2 ^ 32 := by
  simp only [registerWriteOk, Bool.and_eq_true, decide_eq_true_eq] at ok
  exact ⟨ok.1.1, ok.2⟩

/-- Settles O22: the register written by the two halves of what it stores, every other register by its place. -/
theorem baseRegisterReadsBack : Obligations.BaseRegisterReadsBack := by
  intro o w v s aligned ok base fields
  refine ⟨s.modRegs fun r => r.writeBase o w v, rfl, ?frame, fun p x other => readRegister_writeBase_ne _ w v x other,
    fun not18 not20 not28 => ?ignored, fun isBase => ?back⟩
  case frame => exact congrArg (fun r => { s with regs := r }) (writeBase_frame s.regs o w v)
  case ignored =>
    have other : ¬ IsBase base := by
      rintro (at18 | at20 | at28)
      · exact not18 at18
      · exact not20 at20
      · exact not28 at28
    exact congrArg (fun r => { s with regs := r }) (writeBase_ignored s.regs w v other)
  case back =>
    cases w with
    | full => exact readRegister_writeBase_full isBase
    | half =>
      obtain ⟨place, half⟩ := registerWriteOk_half ok
      exact ⟨readRegister_writeBase_half isBase half,
        readRegister_writeBase_otherHalf isBase place (aligned.registerWord isBase)⟩

end Sys2Proof.Machine
end

section
/-! PROOFS. The base registers under every command (R184): a write of one stores its reserved bits as 0, a power-on reset
and a link reset clear them, and every other command, a function reset too, leaves them as they are (R182). -/

namespace Sys2Proof.Machine

/-! ### What every operation leaves -/

/-- The three base registers. -/
def State.bases (s : State) : BitVec 64 × BitVec 64 × BitVec 64 := (s.regs.ctlqRing, s.regs.ctlqCpl, s.regs.profileBase)

section
variable {s t : State}

theorem State.BasesAligned.of_bases (aligned : s.BasesAligned) (same : t.bases = s.bases) : t.BasesAligned := by
  simp only [State.bases, Prod.mk.injEq] at same
  obtain ⟨ring, cpl, profile⟩ := same
  unfold State.BasesAligned
  rw [ring, cpl, profile]
  exact aligned

theorem bases_of_still (same : t.still = s.still) : t.bases = s.bases :=
  congrArg (fun u : Still => (u.regs.ctlqRing, u.regs.ctlqCpl, u.regs.profileBase)) same

theorem bases_of_calm (same : t.calm = s.calm) : t.bases = s.bases := bases_of_still (still_of_calm same)

theorem bases_of_steady (same : t.steady = s.steady) : t.bases = s.bases := bases_of_still (still_of_steady same)

theorem bases_of_outside (same : t.outside = s.outside) : t.bases = s.bases := bases_of_still (still_of_outside same)

end

section
variable (s : State)

@[simp] theorem bases_settle : s.settle.bases = s.bases := bases_of_outside (outside_settle s)

@[simp] theorem bases_controlTest : s.controlTest.bases = s.bases := bases_of_calm (calm_controlTest s)

@[simp] theorem bases_fetchEvaluate : s.fetchEvaluate.bases = s.bases := bases_of_calm (calm_fetchEvaluate s)

@[simp] theorem bases_oweMessage (q : QueueId) : (s.oweMessage q).bases = s.bases := bases_of_calm (calm_oweMessage s q)

@[simp] theorem bases_pulseBegin : s.pulseBegin.bases = s.bases := bases_of_still (still_pulseBegin s)

@[simp] theorem bases_freeIfDone (k : ChunkId) : (s.freeIfDone k).bases = s.bases :=
  bases_of_outside (outside_freeIfDone s k)

@[simp] theorem bases_invalidateAll : s.invalidateAll.bases = s.bases := bases_of_steady (steady_invalidateAll s)

@[simp] theorem bases_setTag (i : TagId) (t : Tag) : (s.setTag i t).bases = s.bases := rfl

@[simp] theorem bases_elapse (n : Nat) : (s.elapse n).bases = s.bases := rfl

@[simp] theorem bases_until (n : Nat) : (s.until n).bases = s.bases := rfl

@[simp] theorem bases_untilUs (n : Nat) : (s.untilUs n).bases = s.bases := rfl

@[simp] theorem bases_modQueue (q : QueueId) (f : QueueRow → QueueRow) : (s.modQueue q f).bases = s.bases := rfl

@[simp] theorem bases_modBus (f : BusCtl → BusCtl) : (s.modBus f).bases = s.bases := rfl

@[simp] theorem bases_popWrite : s.popWrite.bases = s.bases := rfl

/-! Register window and INDEX_PORT. -/

@[simp] theorem bases_writeIrqEnable (on : Bool) : (s.writeIrqEnable on).bases = s.bases := by
  unfold State.writeIrqEnable
  dsimp only
  split
  · refine foldl_keeps State.bases _ (fun u q => ?_) _ _
    split
    · exact bases_oweMessage u q
    · rfl
  · rfl

@[simp] theorem bases_takeEnable : s.takeEnable.bases = s.bases := bases_controlTest _

@[simp] theorem bases_indexErrorSeen (kind : IndexErrorKind) (queue : BitVec 4) :
    (s.indexErrorSeen kind queue).bases = s.bases := by
  unfold State.indexErrorSeen
  split
  · rfl
  · exact (bases_of_calm (calm_oweNotice _)).trans rfl

@[simp] theorem bases_tailTaken (q : QueueId) : (s.tailTaken q).bases = s.bases := by
  unfold State.tailTaken
  split
  · rw [bases_controlTest]
    split <;> rfl
  · exact bases_fetchEvaluate s

@[simp] theorem bases_roomMade (q : QueueId) : (s.roomMade q).bases = s.bases := by
  unfold State.roomMade
  split
  · split
    · exact bases_controlTest _
    · rfl
  · exact bases_fetchEvaluate s

/-! Host reads. -/

@[simp] theorem bases_issueRead (i : TagId) (k : ReqClass) (r : ReadReq) : (s.issueRead i k r).bases = s.bases := by
  unfold State.issueRead State.countIssued
  split <;> rfl

@[simp] theorem bases_segmentRead (c : CtxId) (k : ChunkId) (role : Role) (g : Segment) (place : Nat) (r : Response) :
    (s.segmentRead c k role g place r).bases = s.bases := by
  unfold State.segmentRead
  split
  · exact bases_of_outside (outside_overtakenRead ..)
  · split <;> rfl

@[simp] theorem bases_chunkRead (c : CtxId) (k : ChunkId) (place : Nat) (r : Response) :
    (s.chunkRead c k place r).bases = s.bases := by
  unfold State.chunkRead
  repeat' split
  all_goals simp

@[simp] theorem bases_handResponse (ref : ReadRef) (r : Response) : (s.handResponse ref r).bases = s.bases := by
  unfold State.handResponse
  split
  · exact bases_of_still (still_headerReturned ..)
  · exact bases_of_still (still_extensionReturned ..)
  · split <;> rfl
  · exact bases_of_outside (outside_profileReturned ..)
  · rw [State.dataReturned, bases_settle, bases_of_outside (outside_afterDataRead ..), bases_chunkRead]

@[simp] theorem bases_readReturns (i : TagId) (r : Response) (ofRow : ReadRef → Bool) :
    (s.readReturns i r ofRow).bases = s.bases := by
  unfold State.readReturns
  dsimp only
  repeat' split
  all_goals simp

/-! Target bus. -/

@[simp] theorem bases_startFirstPhase (a : Access) : (s.startFirstPhase a).bases = s.bases := by
  unfold State.startFirstPhase
  split <;> rfl

@[simp] theorem bases_storeBeat (a : Access) (lines : BitVec 32) : (s.storeBeat a lines).bases = s.bases := by
  unfold State.storeBeat
  dsimp only
  repeat' split
  all_goals rfl

@[simp] theorem bases_grantAccess (a : Access) (l r n : Nat) : (s.grantAccess a l r n).bases = s.bases := by
  unfold State.grantAccess
  extract_lets granted claimed
  have staged : claimed.bases = s.bases := (bases_of_outside (outside_claimSecond ..)).trans rfl
  split
  · exact staged
  · exact (bases_startFirstPhase ..).trans staged

@[simp] theorem bases_afterOwner : s.afterOwner.bases = s.bases := by
  have evaluated : s.lockEvaluate.bases = s.bases := bases_of_outside (outside_lockEvaluate s)
  unfold State.afterOwner
  dsimp only
  rw [bases_settle]
  split
  · exact (bases_pulseBegin _).trans evaluated
  · exact evaluated

@[simp] theorem bases_accessEnds (a : Access) (how : AccessEnd) : (s.accessEnds a how).bases = s.bases := by
  unfold State.accessEnds
  extract_lets _ quarantined released
  have ended : released.bases = s.bases := by
    show quarantined.bases = s.bases
    unfold quarantined
    split <;> rfl
  split
  · exact ended
  · exact (bases_afterOwner _).trans ((bases_of_steady (steady_ownerEnd ..)).trans ended)

@[simp] theorem bases_openPhaseDone (a : Access) (response : BitVec 2) : (s.openPhaseDone a response).bases = s.bases := by
  unfold State.openPhaseDone
  split
  · rfl
  all_goals exact bases_accessEnds ..

@[simp] theorem bases_strobeDone (a : Access) (flow : Bool) (lines : BitVec 32) :
    (s.strobeDone a flow lines).bases = s.bases := by
  unfold State.strobeDone
  split
  · exact bases_accessEnds ..
  · extract_lets recovered done
    have stored : recovered.bases = s.bases := by
      show State.bases (if a.direction = .read then s.storeBeat a lines else s) = s.bases
      split
      · exact bases_storeBeat ..
      · rfl
    split
    · exact (bases_accessEnds ..).trans stored
    · exact stored

@[simp] theorem bases_timerDue (c : CtxId) (k : TimerKind) : (s.timerDue c k).bases = s.bases := by
  unfold State.timerDue
  dsimp only
  split
  · split
    · exact bases_settle _
    · rfl
  · rfl

@[simp] theorem bases_nextPulse : s.nextPulse.bases = s.bases := by
  unfold State.nextPulse
  split
  · exact bases_pulseBegin s
  · rfl

@[simp] theorem bases_pulseEnds (due : Nat) : (s.pulseEnds due).bases = s.bases := by
  unfold State.pulseEnds
  extract_lets _ quiet invalidated
  have kept : invalidated.bases = s.bases := (bases_invalidateAll _).trans rfl
  rw [bases_settle, bases_nextPulse, bases_modBus, bases_of_still (still_pendingDone ..), kept]

/-! Completion entries and control records. -/

@[simp] theorem bases_freeChunksOf (c : CtxId) : (s.freeChunksOf c).bases = s.bases :=
  foldl_keeps State.bases _ (fun u k => bases_of_outside (outside_freeChunk u k)) _ _

@[simp] theorem bases_handContext (c : CtxId) (q : QueueId) (e : Entry) : (s.handContext c q e).bases = s.bases := by
  unfold State.handContext
  dsimp only
  rw [bases_settle, bases_freeChunksOf]
  exact (bases_of_calm (calm_handEntry s q (some c) (s.ctx c).irqNow e)).trans rfl

@[simp] theorem bases_moderate (q : QueueId) (irqNow : Bool) : (s.moderate q irqNow).bases = s.bases :=
  bases_of_calm (calm_moderate ..)

@[simp] theorem bases_contextIssued (q : QueueId) (c : CtxId) : (s.contextIssued q c).bases = s.bases := by
  unfold State.contextIssued
  rw [bases_settle, bases_fetchEvaluate, bases_of_still (still_queueTest ..), bases_of_outside (outside_fenceRelease ..),
    bases_of_calm (calm_freeContext ..), bases_of_outside (outside_lockRelease ..), bases_freeChunksOf]

/-- A control record is taken, by a command that leaves the base registers (R164). -/
theorem bases_takeSlot {slot : List Byte} {isRow : Byte → Bool} {run : State → ControlRecord → State}
    (runs : ∀ u r, (run u r).still = u.still) : (s.takeSlot slot isRow run).bases = s.bases := by
  unfold State.takeSlot
  split
  · rfl
  · split
    · rfl
    · split
      · rfl
      · rw [bases_settle, bases_controlTest, bases_of_still (runs ..)]
        rfl

end

/-! ### Every command -/

/-- A command that neither writes a base register nor resets the whole part. -/
def keepsBases (c : Instr) : Bool :=
  match c with
  | .powerOnReset | .linkReset | .registerWrite _ _ _ => false
  | _ => true

/-- An outcome that is a next state is one with the base registers of `s`. -/
def NextKeepsBases (s : State) (out : Host.Outcome State Fault Refusal) : Prop := ∀ t, out = .next t → t.bases = s.bases

theorem NextKeepsBases.next {s t : State} (same : t.bases = s.bases) : NextKeepsBases s (.next t) :=
  fun _ e => by cases e; exact same

section
variable (s : State)

theorem execFunctionResetComplete_keepsBases : NextKeepsBases s (execFunctionResetComplete s) := by
  unfold execFunctionResetComplete
  split <;> exact .next rfl

theorem execEnable_keepsBases (value : BitVec 32) : NextKeepsBases s (execEnable value s) := by
  unfold execEnable
  dsimp only
  split
  · exact .next rfl
  · split
    · exact .next (by simp)
    · split <;> exact .next (by simp)

theorem execReset_keepsBases (value : BitVec 32) : NextKeepsBases s (execReset value s) := by
  unfold execReset
  split <;> exact .next rfl

theorem execIrqEnable_keepsBases (value : BitVec 32) : NextKeepsBases s (execIrqEnable value s) := by
  unfold execIrqEnable
  split
  · exact .next rfl
  · exact .next (by simp)

theorem execIndexErrorClear_keepsBases (value : BitVec 32) : NextKeepsBases s (execIndexErrorClear value s) := by
  unfold execIndexErrorClear
  split <;> exact .next rfl

theorem execSubTail_keepsBases (queue : BitVec 4) (value : BitVec 16) : NextKeepsBases s (execSubTail queue value s) := by
  unfold execSubTail
  split
  · exact .next rfl
  · split <;> exact .next (by simp)

theorem execCplHead_keepsBases (queue : BitVec 4) (value : BitVec 16) : NextKeepsBases s (execCplHead queue value s) := by
  unfold execCplHead
  split
  · exact .next rfl
  · split
    · exact .next (by simp)
    · dsimp only
      split
      · exact .next (by simp)
      · exact .next rfl

theorem execTagGrant_keepsBases : NextKeepsBases s (execTagGrant s) := by
  unfold execTagGrant
  split
  · exact .next rfl
  · split
    · exact .next (by simp)
    · exact .next rfl

theorem execControlReadError_keepsBases : NextKeepsBases s (execControlReadError s) := by
  unfold execControlReadError
  split
  · exact .next rfl
  · exact .next (by simp)

theorem execHostReadTimeout_keepsBases (i : TagId) : NextKeepsBases s (execHostReadTimeout i s) := by
  unfold execHostReadTimeout
  split
  · dsimp only
    split
    · exact .next rfl
    · exact .next (by simp)
  · exact .next rfl

theorem execStaleTagExpiry_keepsBases (i : TagId) : NextKeepsBases s (execStaleTagExpiry i s) := by
  unfold execStaleTagExpiry
  split <;> exact .next rfl

theorem execStaleResponse_keepsBases (i : TagId) : NextKeepsBases s (execStaleResponse i s) := by
  unfold execStaleResponse
  split <;> exact .next rfl

theorem execBusGrant_keepsBases : NextKeepsBases s (execBusGrant s) := by
  unfold execBusGrant
  split
  · exact .next rfl
  · split
    · exact .next (by simp)
    · exact .next rfl

theorem execTurnOffWaitEnd_keepsBases : NextKeepsBases s (execTurnOffWaitEnd s) := by
  unfold execTurnOffWaitEnd
  split
  · split
    · exact .next (by simp [State.turnOffWaitOver])
    · exact .next rfl
  · exact .next rfl

theorem execOpenPhaseEnd_keepsBases (hold : Bool) (response : BitVec 2) :
    NextKeepsBases s (execOpenPhaseEnd hold response s) := by
  unfold execOpenPhaseEnd
  split
  · exact .next rfl
  · dsimp only
    split
    · exact .next rfl
    · exact .next (by simp)

theorem execBeatEnd_keepsBases (hold flow : Bool) (lines : BitVec 32) :
    NextKeepsBases s (execBeatEnd hold flow lines s) := by
  unfold execBeatEnd
  split
  · exact .next rfl
  · dsimp only
    split
    · exact .next rfl
    · exact .next (by simp)

theorem execHoldDrop_keepsBases (response : BitVec 2) (flow : Bool) (lines : BitVec 32) :
    NextKeepsBases s (execHoldDrop response flow lines s) := by
  unfold execHoldDrop
  split
  · exact .next rfl
  · dsimp only
    split
    · exact .next (by simp)
    · exact .next (by simp)
    · exact .next rfl

theorem execHoldTimeout_keepsBases : NextKeepsBases s (execHoldTimeout s) := by
  unfold execHoldTimeout
  split
  · exact .next rfl
  · exact .next (by simp)

theorem execCompletionHandoff_keepsBases (c : CtxId) : NextKeepsBases s (execCompletionHandoff c s) := by
  unfold execCompletionHandoff
  split
  · split
    · exact .next (by simp)
    · exact .next rfl
  · exact .next rfl

theorem execEntryIssued_keepsBases : NextKeepsBases s (execEntryIssued s) := by
  unfold execEntryIssued
  split
  · dsimp only
    split <;> exact .next (by simp)
  · exact .next rfl

theorem execDataWriteIssued_keepsBases : NextKeepsBases s (execDataWriteIssued s) := by
  unfold execDataWriteIssued
  split
  · exact .next (by simp)
  · exact .next rfl

theorem execMessageIssued_keepsBases : NextKeepsBases s (execMessageIssued s) := by
  unfold execMessageIssued
  split <;> exact .next rfl

theorem execDelayTimerDue_keepsBases (q : QueueId) : NextKeepsBases s (execDelayTimerDue q s) := by
  unfold execDelayTimerDue
  split
  · exact .next rfl
  · dsimp only
    split
    · exact .next (by simp)
    · exact .next rfl

theorem execPulseEnd_keepsBases : NextKeepsBases s (execPulseEnd s) := by
  unfold execPulseEnd
  split
  · exact .next (by simp)
  · exact .next rfl

theorem execPowerOnPulseEnd_keepsBases : NextKeepsBases s (execPowerOnPulseEnd s) := by
  unfold execPowerOnPulseEnd
  split
  · exact .next (by simp)
  · exact .next rfl

/-- Every command but a write of a base register and a reset of the whole part leaves the base registers as they are. -/
theorem exec_keepsBases {c : Instr} (keeps : keepsBases c = true) : NextKeepsBases s (exec c s) := by
  cases c with
  | powerOnReset | linkReset | registerWrite => cases keeps
  | functionResetComplete => exact execFunctionResetComplete_keepsBases s
  | enable value => exact execEnable_keepsBases s value
  | reset value => exact execReset_keepsBases s value
  | irqEnable value => exact execIrqEnable_keepsBases s value
  | indexErrorClear value => exact execIndexErrorClear_keepsBases s value
  | subTail queue value => exact execSubTail_keepsBases s queue value
  | cplHead queue value => exact execCplHead_keepsBases s queue value
  | tagGrant => exact execTagGrant_keepsBases s
  | headerSlotReturn | extensionSlotReturn | profileLoadReturn | dataReadReturn => exact .next (bases_readReturns ..)
  | hostReadTimeout tag => exact execHostReadTimeout_keepsBases s tag
  | staleTagExpiry tag => exact execStaleTagExpiry_keepsBases s tag
  | staleResponse tag => exact execStaleResponse_keepsBases s tag
  | busGrant => exact execBusGrant_keepsBases s
  | turnOffWaitEnd => exact execTurnOffWaitEnd_keepsBases s
  | openPhaseEnd hold response => exact execOpenPhaseEnd_keepsBases s hold response
  | beatEnd hold flow lines => exact execBeatEnd_keepsBases s hold flow lines
  | holdDrop response flow lines => exact execHoldDrop_keepsBases s response flow lines
  | holdTimeout => exact execHoldTimeout_keepsBases s
  | retryTimerDue | pollTimerDue | flowTimerDue => exact .next (bases_timerDue ..)
  | completionHandoff c => exact execCompletionHandoff_keepsBases s c
  | entryIssued => exact execEntryIssued_keepsBases s
  | dataWriteIssued => exact execDataWriteIssued_keepsBases s
  | messageIssued => exact execMessageIssued_keepsBases s
  | delayTimerDue q => exact execDelayTimerDue_keepsBases s q
  | controlReadError => exact execControlReadError_keepsBases s
  | unknownCommand => exact .next (bases_takeSlot s fun u r => still_of_calm (calm_runUnknown u r))
  | mark => exact .next (bases_takeSlot s fun u r => still_of_calm (calm_runMark u r))
  | cfgq => exact .next (bases_takeSlot s fun u r => still_of_calm (calm_runCfgq u r))
  | enq => exact .next (bases_takeSlot s fun u r => still_of_calm (calm_runEnq u r))
  | disq => exact .next (bases_takeSlot s fun u r => still_of_calm (calm_runDisq u r))
  | abt => exact .next (bases_takeSlot s fun u r => still_of_calm (calm_runAbt u r))
  | invp => exact .next (bases_takeSlot s still_runInvp)
  | rlst => exact .next (bases_takeSlot s still_runRlst)
  | rstt => exact .next (bases_takeSlot s still_runRstt)
  | qryq => exact .next (bases_takeSlot s fun u r => still_of_calm (calm_runQryq u r))
  | pulseEnd => exact execPulseEnd_keepsBases s
  | powerOnPulseEnd => exact execPowerOnPulseEnd_keepsBases s

end

/-! ### The reserved bits -/

/-- A write of a base register stores its reserved bits as 0, and leaves the other two registers (R184). -/
theorem State.BasesAligned.writeBase {s : State} (aligned : s.BasesAligned) (o : BitVec 8) (w : Width) (v : BitVec 64) :
    (s.modRegs fun r => r.writeBase o w v).BasesAligned := by
  have masked (x fields : BitVec 64) : x &&& fields &&& fields = x &&& fields := by
    rw [BitVec.and_assoc, BitVec.and_self]
  obtain ⟨ring, cpl, profile⟩ := aligned
  unfold State.BasesAligned State.modRegs Regs.writeBase
  dsimp only
  split
  · exact ⟨masked .., cpl, profile⟩
  · exact ⟨ring, masked .., profile⟩
  · exact ⟨ring, cpl, masked ..⟩
  · exact ⟨ring, cpl, profile⟩

/-- The base registers after a power-on reset or a link reset (R25). -/
theorem State.basesAligned_of_cleared {s : State} (cleared : s.regs = {}) : s.BasesAligned := by
  unfold State.BasesAligned
  rw [cleared]
  decide

theorem exec_keeps_basesAligned {s t : State} {c : Instr} (aligned : s.BasesAligned) (answer : exec c s = .next t) :
    t.BasesAligned := by
  by_cases keeps : keepsBases c = true
  · exact aligned.of_bases (exec_keepsBases s keeps t answer)
  · cases c with
    | powerOnReset | linkReset =>
      cases answer
      exact State.basesAligned_of_cleared rfl
    | registerWrite o w v =>
      cases answer
      exact aligned.writeBase o w v
    | _ => exact absurd rfl keeps

/-- Settles O9: every command but three leaves the base registers, a write masks the one it stores, a reset clears them. -/
theorem stepKeepsBasesAligned : Obligations.StepKeepsBasesAligned := by
  intro s t aligned answer
  unfold step at answer
  split at answer
  · cases answer
    exact aligned
  · next rest _ =>
    have queued : ({ s with pending := rest } : State).BasesAligned := aligned
    exact exec_keeps_basesAligned queued answer

end Sys2Proof.Machine
end
